-- ==== Sys2Proof/Word.lean ====
section
/-! DEFINITION. The word types of the part: bytes, 16-bit and 32-bit fields of frames, and values of the time base. -/

namespace Sys2Proof

/-- One byte of a frame or of a two-wire transfer. -/
abbrev Byte := BitVec 8

/-- A 16-bit field of a frame (a period, a pass limit, a CRC). -/
abbrev Half := BitVec 16

/-- A 32-bit field of a frame (a pass number, a counter, a limit). -/
abbrev Word := BitVec 32

/-- A value of the time base: microseconds modulo 2 to the power 32 (section 9.1). -/
abbrev Time := BitVec 32

/-- The value of one 12-bit conversion of an analog input (section 7.3). -/
abbrev Sample := BitVec 12

end Sys2Proof
end

