-- ==== Sys2Proof/Syntax.lean ====
section
/-! DEFINITION. The commands of the block: one constructor for each row of spec/opcode_table.json. -/

namespace Sys2Proof

/-- A two-wire port by its number: TW0, TW1 or TW2. -/
abbrev PortNo := Fin 3

/-- A sweep by its number. -/
abbrev SweepNo := Fin 8

/-- The four resources that perform probes (section 0.2). -/
inductive Resource where
  | tw (p : PortNo)
  | analog
deriving DecidableEq, Repr

/-- The four owners of PORT requests: a port, or the Two-Wire Ports block as a whole (R174). -/
inductive PortOwner where
  | tw (p : PortNo)
  | block
deriving DecidableEq, Repr

/-- A command is one step of the part, whole and indivisible (spec/95). The table gives no operands: those here name what
the step concerns and what the outside world contributes to it (log 1). -/
inductive Instr where
  /-- SEL_ASSERTION (R157): the host asserts SEL. -/
  | selAssertion
  /-- EXCHANGE_END (R159): the host deasserts SEL after shifting the bytes `sdi` (whole bytes only, R156). -/
  | exchangeEnd (sdi : List Byte)
  /-- NRST_ASSERTION (R173). -/
  | nrstAssertion
  /-- NRST_RELEASE (R173). -/
  | nrstRelease
  /-- TIME_GET (R148): the Time Base takes the request at the head of its hand-off list. -/
  | timeGet
  /-- PROBE_SET (R10). -/
  | probeSet
  /-- PROBE_CLEAR (R13). -/
  | probeClear
  /-- PROBE_GET (R15). -/
  | probeGet
  /-- SWEEP_SET (R22). -/
  | sweepSet
  /-- SWEEP_CLEAR (R25). -/
  | sweepClear
  /-- SWEEP_ARM (R27). -/
  | sweepArm
  /-- SWEEP_FIRE (R34). -/
  | sweepFire
  /-- SWEEP_STOP (R38). -/
  | sweepStop
  /-- SWEEP_GET (R44). -/
  | sweepGet
  /-- RESULT_FETCH (R76). -/
  | resultFetch
  /-- PORT_SET (R121), taken by the owner `o`. -/
  | portSet (o : PortOwner)
  /-- PORT_GET (R122), taken by the owner `o`. -/
  | portGet (o : PortOwner)
  /-- PORT_CLEAR (R119), taken by the owner `o`. -/
  | portClear (o : PortOwner)
  /-- PORT_XFER (R116), taken by the owner `o`. -/
  | portXfer (o : PortOwner)
  /-- HOST_ENTRY_ARRIVAL (R90): the arbiter of port `p` takes the first direct transfer handed to it. -/
  | hostEntryArrival (p : PortNo)
  /-- ANALOG_SET (R129). -/
  | analogSet
  /-- ANALOG_GET (R131). -/
  | analogGet
  /-- WATCH_GET (R141). -/
  | watchGet
  /-- WATCH_RESET (R142). -/
  | watchReset
  /-- PERIOD_EXPIRY (R28) of sweep `i`. -/
  | periodExpiry (i : SweepNo)
  /-- SETTLE_EXPIRY (R93) of member `k` of the settling set of port `p`. -/
  | settleExpiry (p : PortNo) (k : Nat)
  /-- WAIT_EXPIRY (R84) of member `k` of the waiter list. -/
  | waitExpiry (k : Nat)
  /-- STRETCH_TIMER_EXPIRY (R112) at port `p`. -/
  | stretchTimerExpiry (p : PortNo)
  /-- IDLE_TIMER_EXPIRY (R128). -/
  | idleTimerExpiry
  /-- ARBITER_TAKES_ISSUE (R89): the arbiter of `r` takes the first request issued to it. -/
  | arbiterTakesIssue (r : Resource)
  /-- GRANT (R91) at the arbiter of `r`. -/
  | grant (r : Resource)
  /-- END_OF_PRELUDE_PHASE (R107) at port `p`. -/
  | endOfPreludePhase (p : PortNo)
  /-- READ_PHASE_END (R108) at port `p`, with the bytes received. -/
  | readPhaseEnd (p : PortNo) (data : List Byte)
  /-- ADDR_NAK (R110) at port `p`: the address byte at place `k` of the bus sequence is not acknowledged. -/
  | addrNak (p : PortNo) (k : Nat)
  /-- DATA_NAK (R111) at port `p`: the written byte at place `k` of the bus sequence is not acknowledged. -/
  | dataNak (p : PortNo) (k : Nat)
  /-- CONTENTION (R113) at port `p`. -/
  | contention (p : PortNo)
  /-- DIRECT_TRANSFER_END (R117) at port `p`, with the bytes received. -/
  | directTransferEnd (p : PortNo) (data : List Byte)
  /-- CLEAR_END (R120) at port `p` after `pulses` clock pulses; `linesHigh` is what the port reads at step 4. -/
  | clearEnd (p : PortNo) (pulses : Nat) (linesHigh : Bool)
  /-- END_OF_WAKE (R125). -/
  | endOfWake
  /-- END_OF_CONVERSION (R127); `v` is the value of the last sample. -/
  | endOfConversion (v : Sample)
  /-- COMPLETION (R49): the Sweep Engine takes the first completion handed to it by the arbiter of `r`. -/
  | completion (r : Resource)
  /-- COMPLETION_COPY (R134). -/
  | completionCopy
  /-- STRETCHING (R112) at port `p`; in a clear, `pulses` is the number of pulses made so far. -/
  | stretching (p : PortNo) (pulses : Nat)
  /-- SCL_RISES (R112) at port `p`. -/
  | sclRises (p : PortNo)
deriving DecidableEq, Repr

end Sys2Proof
end

