-- ==== Sys2Proof/Decode.lean ====
section
/-! DEFINITION. The command that a word of the table spells. No row of spec/opcode_table.json gives bits, so no word spells
a command (log 3). The byte layouts of frames and payloads, by which the host's requests are read, are in
Machine/Bytes.lean, Machine/Formats.lean and Machine/Operands.lean. -/

namespace Sys2Proof

/-- The table spells no command by bits: every word spells none. -/
def decodeTableWord (_nbits _w : Nat) : Option Instr := none

end Sys2Proof
end

