-- ==== Sys2Proof/Machine/Bytes.lean ====
section
/-! DEFINITION. Bytes: the order of wide fields in a frame, the places of a payload, durations in microseconds, and the
CRC. -/

namespace Sys2Proof.Machine

/-- A 16-bit field as sent, most significant byte first (section 0.5, Byte order). -/
def be16 (w : Half) : List Byte := [w.extractLsb' 8 8, w.extractLsb' 0 8]

/-- A 32-bit field as sent, most significant byte first (section 0.5, Byte order). -/
def be32 (w : Word) : List Byte :=
  [w.extractLsb' 24 8, w.extractLsb' 16 8, w.extractLsb' 8 8, w.extractLsb' 0 8]

/-- A count or number as one byte of a payload. -/
def byteOf (n : Nat) : Byte := BitVec.ofNat 8 n

/-- A flag as one byte of a payload. -/
def flagByte (b : Bool) : Byte := if b then 1 else 0

/-- The byte at offset `k`. A payload that reaches an owner has its full length (R176), so 0 is read only beyond it. -/
def readByte (p : List Byte) (k : Nat) : Byte := p.getD k 0

/-- The number in the byte at offset `k`. -/
def readNat (p : List Byte) (k : Nat) : Nat := (readByte p k).toNat

/-- The 16-bit field at offsets `k` and `k + 1`. -/
def readHalf (p : List Byte) (k : Nat) : Half := readByte p k ++ readByte p (k + 1)

/-- The 32-bit field at offsets `k` to `k + 3`. -/
def readWord (p : List Byte) (k : Nat) : Word := readHalf p k ++ readHalf p (k + 2)

/-- The `n` byte places from offset `k`. -/
def places (p : List Byte) (k n : Nat) : List Byte := (p.drop k).take n

/-- Every byte is zero: the check of unused places and fields (Table 1-2, Table 2-3, R116). -/
def allZero (l : List Byte) : Bool := l.all (· == 0)

/-- A list of bytes in `n` places, the unused ones zero. -/
def padTo (n : Nat) (l : List Byte) : List Byte := l ++ List.replicate (n - l.length) 0

/-- A duration in ms as microseconds of the time base (section 0.5, Time). -/
def msTime (ms : Nat) : Time := BitVec.ofNat 32 (1000 * ms)

/-- One shift of the CRC register (R182). -/
def crcShift (c : Half) : Half := if c.msb then (c <<< 1) ^^^ 0x1021 else c <<< 1

/-- One byte into the CRC register (R182). -/
def crcByte (c : Half) (b : Byte) : Half := crcShift^[8] (c ^^^ ((b.setWidth 16) <<< 8))

/-- The CRC of a frame's bytes from LEN to the end of the payload (R182). -/
def crc (bs : List Byte) : Half := bs.foldl crcByte 0xFFFF

end Sys2Proof.Machine
end

