-- ==== Sys2Proof/Machine/State.lean ====
section
/-! DEFINITION. Everything the spec gives the part, as plain data: the state of the nine blocks, the queue of waiting
commands, and the machine right after reset. Each field's docstring cites the rule that names it; INVENTORY.md lists
them with their reset values. -/

namespace Sys2Proof.Machine

/-! ### Requests -/

/-- The requests that an owner takes (Table 11-1). OPEN and DEVICE.RESET are the Host Link's and reach no owner. -/
inductive ReqKind where
  | timeGet
  | probeSet | probeClear | probeGet
  | sweepSet | sweepClear | sweepArm | sweepFire | sweepStop | sweepGet
  | resultFetch
  | portSet | portGet | portClear | portXfer
  | analogSet | analogGet
  | watchGet | watchReset
deriving DecidableEq, Repr

/-- An accepted request as the Host Link knows it. `id` tells requests of equal SEQ apart (R155, log 12); `replyKind` is
the KIND its reply will carry (R177). -/
structure ReqRef where
  id : Nat
  seq : Byte
  replyKind : Byte
deriving DecidableEq, Repr

/-- A request in a hand-off list (section 11.1). -/
structure Request where
  ref : ReqRef
  kind : ReqKind
  payload : List Byte
deriving DecidableEq, Repr

/-! ### Probe Table (Chapter 1) -/

/-- Address modes of a two-wire target (R3). -/
inductive AddrMode where
  | seven | ten
deriving DecidableEq, Repr

/-- Byte orders of a watched value (R5). -/
inductive ByteOrder where
  | big | little
deriving DecidableEq, Repr

/-- Signedness of a watched value (R5). -/
inductive Signedness where
  | unsigned | signed
deriving DecidableEq, Repr

/-- The prelude part of a two-wire record: 1-4 bytes and a settle time in ms (R3). -/
structure Prelude where
  bytes : List Byte
  settle : Byte
deriving DecidableEq, Repr

/-- The watch part of a record (R5). The limits are signed. -/
structure WatchPart where
  offset : Nat
  width : Nat
  order : ByteOrder
  sign : Signedness
  low : Word
  high : Word
  hysteresis : Half
deriving DecidableEq, Repr

/-- The fields of a TWO_WIRE record (R3). -/
structure TwoWire where
  port : PortNo
  mode : AddrMode
  addr : BitVec 10
  index : List Byte
  prelude : Option Prelude
  readLen : Nat
  retries : Nat
deriving DecidableEq, Repr

/-- The fields of an ANALOG record (R4). -/
structure Analog where
  input : Fin 10
  samples : Nat
deriving DecidableEq, Repr

/-- The kind of a record with the fields that belong to it (R2). -/
inductive ProbeBody where
  | twoWire (d : TwoWire)
  | analog (d : Analog)
deriving DecidableEq, Repr

/-- A probe record (R2). -/
structure ProbeRecord where
  body : ProbeBody
  faultLimit : Nat
  watch : Option WatchPart
deriving DecidableEq, Repr

/-- A probe slot: EMPTY is `none`, whose record is all zero (section 1.1), and the reference count (R7). -/
structure ProbeSlot where
  record : Option ProbeRecord
  refs : Nat
deriving DecidableEq, Repr

/-! ### Sweep Engine (Chapters 2 and 3) -/

/-- Sweep states (section 2.2). -/
inductive SweepState where
  | empty | idle | armed | running | stopping
deriving DecidableEq, Repr

/-- Trigger sources with the fields that belong to them (Table 2-1). -/
inductive Trigger where
  | period (period phase : Half)
  | host
  | chain (sweep : SweepNo)
deriving DecidableEq, Repr

/-- Overrun policies (R32). -/
inductive Overrun where
  | skip | restart
deriving DecidableEq, Repr

/-- Fault policies (section 3.4). -/
inductive FaultPolicy where
  | continue | halt
deriving DecidableEq, Repr

/-- A sweep definition (R19). -/
structure SweepDef where
  list : List (Fin 64)
  source : Trigger
  passLimit : Half
  overrun : Overrun
  faultPolicy : FaultPolicy
  priority : Fin 4
  notify : Bool
deriving DecidableEq, Repr

/-- Position states (Table 3-1). -/
inductive PosState where
  | pending | deferred | complete
deriving DecidableEq, Repr

/-- The running pass (R45). Its pass number is the sweep's `started`. -/
structure RunningPass where
  start : Time
  positions : List PosState
deriving DecidableEq, Repr

/-- A sweep context (Table 2-1). `held` are the SWEEP.STOP requests whose replies wait for IDLE (R40); `armExpiry` is the
model's own mark that the phase-0 first expiry of this arming is not taken yet (R27, log 9). -/
structure Sweep where
  state : SweepState
  defn : Option SweepDef
  started : Word
  sinceArm : Word
  missed : Nat
  published : Word
  timer : Option Time
  armExpiry : Bool
  run : Option RunningPass
  remnant : Nat
  held : List ReqRef
deriving DecidableEq, Repr

/-! ### Probe requests and completions (Chapters 3 and 5) -/

/-- A probe request (R48). -/
structure ProbeRequest where
  sweep : SweepNo
  position : Fin 16
  pass : Word
  slot : Fin 64
  copy : ProbeRecord
  priority : Fin 4
deriving DecidableEq, Repr

/-- Statuses of a completion (R49). -/
inductive CompStatus where
  | done | addrNak | dataNak | stretchTimeout | contention | portBlocked
deriving DecidableEq, Repr

/-- A completion (R49); slot, sweep, position, pass of issue, fault limit and watch part are those of its request. -/
structure Completion where
  req : ProbeRequest
  status : CompStatus
  data : List Byte
  attempts : Nat
  time : Time
deriving DecidableEq, Repr

/-- A probe request in an arbiter, with its age (R88); `preludeDone` is set by passing through the settling set (R106). -/
structure ProbeEntry where
  req : ProbeRequest
  age : Nat
  preludeDone : Bool
deriving DecidableEq, Repr

/-- What every arbiter holds (Table 5-1) but for its granted entry: `issues` are the requests issued to it and not yet
taken (R89), `pending` its pending probe requests, `age` its age counter (R88), `done` the completions it has handed to
the Sweep Engine and the Sweep Engine has not yet taken (R92). -/
structure Arbiter where
  issues : List ProbeRequest
  pending : List ProbeEntry
  age : Nat
  done : List Completion
deriving DecidableEq, Repr

/-! ### Two-Wire Ports (Chapters 5 and 6) -/

/-- A direct transfer (R116). -/
structure Transfer where
  ref : ReqRef
  mode : AddrMode
  addr : BitVec 10
  write : List Byte
  readLen : Nat
deriving DecidableEq, Repr

/-- A direct transfer in the pending collection: rank 4, with its age (R90). -/
structure TransferEntry where
  xfer : Transfer
  age : Nat
deriving DecidableEq, Repr

/-- Rates (R102). -/
inductive Rate where
  | r100 | r400
deriving DecidableEq, Repr

/-- A port configuration (R102); the stretch timeout is in ms. -/
structure PortConfig where
  rate : Rate
  stretchMs : Byte
deriving DecidableEq, Repr

/-- A held configuration with the PORT.SET that gave it (R97). -/
structure HeldConfig where
  config : PortConfig
  ref : ReqRef
deriving DecidableEq, Repr

/-- A member of the settling set with its settle timer (R93). -/
structure Settling where
  entry : ProbeEntry
  expiry : Time
deriving DecidableEq, Repr

/-- Phases of a two-wire probe (section 6.4). -/
inductive Phase where
  | prelude | read
deriving DecidableEq, Repr

/-- The granted entry of a port arbiter: a probe request with its phase and attempt count (R106), a direct transfer, or
a clear with the pulses it is known to have made (R120). -/
inductive PortWork where
  | probe (e : ProbeEntry) (phase : Phase) (attempt : Nat)
  | transfer (t : TransferEntry)
  | clear (ref : ReqRef) (pulses : Nat)
deriving DecidableEq, Repr

/-- A granted entry with the configuration in force at its grant (R102). -/
structure PortGrant where
  work : PortWork
  config : PortConfig
deriving DecidableEq, Repr

/-- Port states (Table 6-1). -/
inductive PortState where
  | idle | active | blocked | clearing
deriving DecidableEq, Repr

/-- Causes of an entry to BLOCKED (R114). -/
inductive BlockCause where
  | stretchTimeout | contention
deriving DecidableEq, Repr

/-- A two-wire port with its arbiter (Table 5-1, section 6.1). `arrivals` are the direct transfers handed to the arbiter
and not yet taken (R90); `transfers` the pending ones; `stretch` the expiry of the stretch timer while it runs;
`lastBlock` is `none` for cause NONE and time 0. -/
structure Port where
  arb : Arbiter
  arrivals : List Transfer
  transfers : List TransferEntry
  granted : Option PortGrant
  settling : List Settling
  held : Option HeldConfig
  state : PortState
  config : PortConfig
  stretch : Option Time
  lastBlock : Option (BlockCause × Time)
deriving DecidableEq, Repr

/-! ### Analog Converter (Chapter 7) -/

/-- Power states (Table 7-1). -/
inductive Power where
  | off | waking | ready | converting
deriving DecidableEq, Repr

/-- The conversion in progress (section 7.1): the granted request, when the converter became WAKING or CONVERTING for it,
and the samples taken so far with their running sum. -/
structure Conversion where
  entry : ProbeEntry
  since : Time
  taken : Nat
  sum : Nat
deriving DecidableEq, Repr

/-- The converter with its arbiter; `granted` is the granted entry of the ANALOG arbiter. -/
structure Converter where
  arb : Arbiter
  granted : Option Conversion
  power : Power
  idleDelay : Byte
  idleTimer : Option Time
deriving DecidableEq, Repr

/-! ### Result Store (Chapter 4) -/

/-- Status of a result record (Table 4-1). -/
inductive RecStatus where
  | none
  | pending
  | ended (s : CompStatus)
deriving DecidableEq, Repr

/-- A result record (Table 4-1). Its position is its place in the page; its data length is the length of `data`. -/
structure Record where
  slot : Fin 64
  status : RecStatus
  attempts : Nat
  data : List Byte
  time : Time
deriving DecidableEq, Repr

/-- A page: header (Table 4-2) and sixteen records. -/
structure Page where
  pass : Word
  start : Time
  publish : Time
  faults : Nat
  records : Vector Record 16
deriving DecidableEq, Repr

/-- The two pages of a sweep; `publishedB` says that page B is the published one (section 4.1); `workUsed` is cleared by
a discard and by publication (R73, R74). Its value after a reset or a clear is the model's choice (log 13). -/
structure Pages where
  a : Page
  b : Page
  publishedB : Bool
  workUsed : Bool
deriving DecidableEq, Repr

/-- A waiter (Table 4-4). -/
structure Waiter where
  ref : ReqRef
  sweep : SweepNo
  passHeld : Word
  first : Nat
  count : Nat
  deadline : Time
deriving DecidableEq, Repr

/-! ### Watch Unit (Chapter 8) -/

/-- Watch states (section 8.1). -/
inductive WatchState where
  | unknown | low | normal | high
deriving DecidableEq, Repr

/-- Health (section 8.1). -/
inductive Health where
  | good | failing
deriving DecidableEq, Repr

/-- What the Watch Unit holds for a slot (section 8.1). -/
structure WatchSlot where
  watch : WatchState
  health : Health
  faults : Nat
deriving DecidableEq, Repr

/-- What reaches the Watch Unit and waits to be taken, in one order (R134): completion copies (a copy carries what its
completion carries, R51) and the requests of its hand-off list. -/
inductive WatchItem where
  | copy (c : Completion)
  | request (r : Request)
deriving DecidableEq, Repr

/-! ### Host Link (Chapters 10 and 11) -/

/-- Link states (Table 10-1). -/
inductive LinkState where
  | closed | opened
deriving DecidableEq, Repr

/-- Reasons of HELLO frames and OPEN replies (Table 11-4). -/
inductive Reason where
  | powerOn | hostReset | restart
deriving DecidableEq, Repr

/-- Outbound kinds of queued frames (Table 11-1, note c); a reply holds its KIND. -/
inductive OutKind where
  | reply (kind : Byte)
  | hello
  | pass | watch | health | halt
deriving DecidableEq, Repr

/-- A frame of the outbound queue with its sent mark (Table 10-1). -/
structure OutFrame where
  kind : OutKind
  seq : Byte
  payload : List Byte
  sent : Bool
deriving DecidableEq, Repr

/-- The exchange in progress: the bytes of the composed offer, and whether it is a frame at the send cursor (R157). -/
structure Exchange where
  offer : List Byte
  queued : Bool
deriving DecidableEq, Repr

/-- The Host Link (Table 10-1) with its pins. `nextId` is the model's own (log 12). -/
structure Link where
  state : LinkState
  e : Byte
  t : Byte
  queue : List OutFrame
  cursor : Nat
  accepted : List ReqRef
  orphans : List ReqRef
  crcNote : Bool
  reason : Reason
  exchange : Option Exchange
  sel : Bool
  nrst : Bool
  attn : Bool
  nextId : Nat
deriving DecidableEq, Repr

/-- The hand-off lists (section 11.1). The Watch Unit's stands in its inbox (R134). -/
structure HandOff where
  timeBase : List Request
  probeTable : List Request
  sweepEngine : List Request
  resultStore : List Request
  tw : Vector (List Request) 3
  portsBlock : List Request
  converter : List Request
deriving DecidableEq, Repr

/-! ### The machine -/

/-- The machine. `pending` is the queue of waiting commands and `free` the index of the next free value: both are the
model's own. -/
structure State where
  pending : List Instr
  time : Time
  slots : Vector ProbeSlot 64
  sweeps : Vector Sweep 8
  pages : Vector Pages 8
  waiters : List Waiter
  ports : Vector Port 3
  conv : Converter
  watches : Vector WatchSlot 64
  dropped : Nat
  inbox : List WatchItem
  hand : HandOff
  link : Link
  free : Nat
deriving DecidableEq, Repr

/-- No command raises a machine fault: whatever the bus or the host does wrong is an effect on State (section 6.5, R160). -/
inductive Fault where
deriving DecidableEq, Repr

/-- Refusals. -/
inductive Refusal where
  /-- Raised only by an arm of `exec` whose command has no meaning yet; no arm does. Safe. -/
  | notModelled (mnemonic : String)
deriving DecidableEq, Repr

/-! ### Reset values -/

/-- R1. -/
def ProbeSlot.reset : ProbeSlot := { record := none, refs := 0 }

/-- R20. -/
def Sweep.reset : Sweep :=
  { state := .empty, defn := none, started := 0, sinceArm := 0, missed := 0, published := 0, timer := none,
    armExpiry := false, run := none, remnant := 0, held := [] }

/-- A record of status NONE (section 4.1). -/
def Record.cleared : Record := { slot := 0, status := .none, attempts := 0, data := [], time := 0 }

/-- A cleared page (section 4.1). -/
def Page.cleared : Page :=
  { pass := 0, start := 0, publish := 0, faults := 0, records := Vector.replicate 16 Record.cleared }

/-- R68: both pages cleared. That page A is the published one and that the work page is unused are the model's (DESIGN
CHOICE, log 13). -/
def Pages.reset : Pages := { a := Page.cleared, b := Page.cleared, publishedB := false, workUsed := false }

/-- R87. -/
def Arbiter.reset : Arbiter := { issues := [], pending := [], age := 0, done := [] }

/-- R102: 100 kbit/s and 25 ms. -/
def PortConfig.reset : PortConfig := { rate := .r100, stretchMs := 25 }

/-- R87 and R100. -/
def Port.reset : Port :=
  { arb := Arbiter.reset, arrivals := [], transfers := [], granted := none, settling := [], held := none,
    state := .idle, config := PortConfig.reset, stretch := none, lastBlock := none }

/-- R87 and R123. -/
def Converter.reset : Converter :=
  { arb := Arbiter.reset, granted := none, power := .off, idleDelay := 2, idleTimer := none }

/-- R133. -/
def WatchSlot.reset : WatchSlot := { watch := .unknown, health := .good, faults := 0 }

/-- R179: every hand-off list is emptied. -/
def HandOff.reset : HandOff :=
  { timeBase := [], probeTable := [], sweepEngine := [], resultStore := [], tw := Vector.replicate 3 [],
    portsBlock := [], converter := [] }

/-- Table 11-4, row "reason". -/
def Reason.code : Reason → Byte
  | .powerOn => 0
  | .hostReset => 1
  | .restart => 2

/-- The HELLO frame (R155, R187): SEQ 0, the closing reason and the part revision, which is 1. -/
def OutFrame.hello (r : Reason) : OutFrame := { kind := .hello, seq := 0, payload := [r.code, 1], sent := false }

/-- Table 10-1, R155; ATTN is asserted because the link is CLOSED (R167). -/
def Link.reset (r : Reason) : Link :=
  { state := .closed, e := 0, t := 0, queue := [OutFrame.hello r], cursor := 0, accepted := [], orphans := [],
    crcNote := false, reason := r, exchange := none, sel := false, nrst := false, attn := true, nextId := 0 }

/-- The machine after a power-on reset whose NRST has been released (R173, R179). Log 23. -/
def State.reset : State :=
  { pending := [], time := 0, slots := Vector.replicate 64 ProbeSlot.reset, sweeps := Vector.replicate 8 Sweep.reset,
    pages := Vector.replicate 8 Pages.reset, waiters := [], ports := Vector.replicate 3 Port.reset,
    conv := Converter.reset, watches := Vector.replicate 64 WatchSlot.reset, dropped := 0, inbox := [],
    hand := HandOff.reset, link := Link.reset .powerOn, free := 0 }

end Sys2Proof.Machine
end

