-- ==== Sys2Proof/Machine/Formats.lean ====
section
/-! DEFINITION. Codes and frame layouts (Chapter 11): the table of requests, status codes, codes of enumerated fields,
the frame of the part and the frame of the host. -/

namespace Sys2Proof.Machine

/-! ### Codes of enumerated fields (R183, Table 11-4) -/

def AddrMode.code : AddrMode → Byte
  | .seven => 7
  | .ten => 10

def ByteOrder.code : ByteOrder → Byte
  | .big => 0
  | .little => 1

def Signedness.code : Signedness → Byte
  | .unsigned => 0
  | .signed => 1

def SweepState.code : SweepState → Byte
  | .empty => 0
  | .idle => 1
  | .armed => 2
  | .running => 3
  | .stopping => 4

def Trigger.code : Trigger → Byte
  | .period _ _ => 1
  | .host => 2
  | .chain _ => 3

def Overrun.code : Overrun → Byte
  | .skip => 0
  | .restart => 1

def FaultPolicy.code : FaultPolicy → Byte
  | .continue => 0
  | .halt => 1

def PortState.code : PortState → Byte
  | .idle => 0
  | .active => 1
  | .blocked => 2
  | .clearing => 3

def Rate.code : Rate → Byte
  | .r100 => 0
  | .r400 => 1

def Power.code : Power → Byte
  | .off => 0
  | .waking => 1
  | .ready => 2
  | .converting => 3

def WatchState.code : WatchState → Byte
  | .unknown => 0
  | .low => 1
  | .normal => 2
  | .high => 3

def Health.code : Health → Byte
  | .good => 0
  | .failing => 1

/-! ### Status codes (Table 11-2) -/

/-- Reply statuses. -/
inductive Status where
  | ok | busy | noSweep | noProbe | inUse | badArg | badList | badFrame | unknownKind | notArmed
  | portBlocked | notBlocked | stuck | noPass | stale | timeout | waitersFull
  | addrNak | dataNak | stretchTimeout | contention
deriving DecidableEq, Repr

def Status.code : Status → Byte
  | .ok => 0x00
  | .busy => 0x01
  | .noSweep => 0x02
  | .noProbe => 0x03
  | .inUse => 0x04
  | .badArg => 0x05
  | .badList => 0x06
  | .badFrame => 0x07
  | .unknownKind => 0x08
  | .notArmed => 0x09
  | .portBlocked => 0x0A
  | .notBlocked => 0x0B
  | .stuck => 0x0C
  | .noPass => 0x0D
  | .stale => 0x0E
  | .timeout => 0x0F
  | .waitersFull => 0x10
  | .addrNak => 0x11
  | .dataNak => 0x12
  | .stretchTimeout => 0x13
  | .contention => 0x14

/-- The reply status of a direct transfer that ended with a completion status (R118). -/
def CompStatus.status : CompStatus → Status
  | .done => .ok
  | .addrNak => .addrNak
  | .dataNak => .dataNak
  | .stretchTimeout => .stretchTimeout
  | .contention => .contention
  | .portBlocked => .portBlocked

/-- DONE has the code of OK (Table 11-2). -/
def CompStatus.code (s : CompStatus) : Byte := s.status.code

def RecStatus.code : RecStatus → Byte
  | .none => 0xFF
  | .pending => 0xFE
  | .ended s => s.code

def BlockCause.status : BlockCause → CompStatus
  | .stretchTimeout => .stretchTimeout
  | .contention => .contention

/-! ### Requests by owner (Table 11-1) -/

/-- The owner of a request's hand-off list (R174); a PORT request's owner is read from its payload. -/
inductive Owner where
  | timeBase | probeTable | sweepEngine | resultStore | ports | converter | watchUnit
deriving DecidableEq, Repr

/-- The KIND code of a request. -/
def ReqKind.code : ReqKind → Byte
  | .timeGet => 0x03
  | .probeSet => 0x08
  | .probeClear => 0x09
  | .probeGet => 0x0A
  | .sweepSet => 0x10
  | .sweepClear => 0x11
  | .sweepArm => 0x12
  | .sweepFire => 0x13
  | .sweepStop => 0x14
  | .sweepGet => 0x15
  | .resultFetch => 0x18
  | .portSet => 0x20
  | .portGet => 0x21
  | .portClear => 0x22
  | .portXfer => 0x23
  | .analogSet => 0x28
  | .analogGet => 0x29
  | .watchGet => 0x30
  | .watchReset => 0x31

/-- The request LEN. -/
def ReqKind.len : ReqKind → Nat
  | .timeGet => 0
  | .probeSet => 35
  | .probeClear => 1
  | .probeGet => 1
  | .sweepSet => 30
  | .sweepClear => 1
  | .sweepArm => 1
  | .sweepFire => 1
  | .sweepStop => 1
  | .sweepGet => 1
  | .resultFetch => 10
  | .portSet => 3
  | .portGet => 1
  | .portClear => 1
  | .portXfer => 22
  | .analogSet => 1
  | .analogGet => 0
  | .watchGet => 1
  | .watchReset => 1

/-- The owner. -/
def ReqKind.owner : ReqKind → Owner
  | .timeGet => .timeBase
  | .probeSet | .probeClear | .probeGet => .probeTable
  | .sweepSet | .sweepClear | .sweepArm | .sweepFire | .sweepStop | .sweepGet => .sweepEngine
  | .resultFetch => .resultStore
  | .portSet | .portGet | .portClear | .portXfer => .ports
  | .analogSet | .analogGet => .converter
  | .watchGet | .watchReset => .watchUnit

/-- Every request kind. -/
def ReqKind.all : List ReqKind :=
  [.timeGet, .probeSet, .probeClear, .probeGet, .sweepSet, .sweepClear, .sweepArm, .sweepFire, .sweepStop, .sweepGet,
   .resultFetch, .portSet, .portGet, .portClear, .portXfer, .analogSet, .analogGet, .watchGet, .watchReset]

/-- The request that a KIND code names, if any (R176). -/
def ReqKind.ofCode (c : Byte) : Option ReqKind := ReqKind.all.find? (fun k => k.code == c)

/-- KIND codes that the Host Link attends to itself. -/
def kindNull : Byte := 0x00
def kindOpen : Byte := 0x01
def kindDeviceReset : Byte := 0x02

/-- The KIND of the reply to a request of code `c`: 80 hex plus the code (R177). -/
def replyKind (c : Byte) : Byte := 0x80 + c

/-! ### Frames (Table 11-3, R181, R182) -/

/-- KIND of an outbound frame (Table 11-1, note c). -/
def OutKind.code : OutKind → Byte
  | .reply k => k
  | .hello => 0xC1
  | .pass => 0xC8
  | .watch => 0xC9
  | .health => 0xCA
  | .halt => 0xCB

/-- KIND of an IDLE frame. -/
def kindIdle : Byte := 0xC0

/-- An event frame is of kind PASS, WATCH, HEALTH or HALT (section 8.5). -/
def OutFrame.isEvent (f : OutFrame) : Bool :=
  match f.kind with
  | .pass | .watch | .health | .halt => true
  | .reply _ | .hello => false

/-- A REPLY frame (R177). -/
def OutFrame.isReply (f : OutFrame) : Bool :=
  match f.kind with
  | .reply _ => true
  | .hello | .pass | .watch | .health | .halt => false

/-- The bytes of a part frame: sync A5 hex, LEN, KIND, SEQ, ACK, FLAGS, payload, CRC (R181, R182). -/
def partFrame (kind seq ack flags : Byte) (payload : List Byte) : List Byte :=
  let body := [byteOf payload.length, kind, seq, ack, flags] ++ payload
  0xA5 :: (body ++ be16 (crc body))

/-- The bytes of a host frame (Table 11-3, R182): sync 5A hex, LEN, KIND, SEQ, ACK, FLAGS, payload, CRC. -/
def hostFrameBytes (kind seq ack flags : Byte) (payload : List Byte) : List Byte :=
  let body := [byteOf payload.length, kind, seq, ack, flags] ++ payload
  0x5A :: (body ++ be16 (crc body))

/-- A valid host frame as the Host Link uses it (R181). -/
structure HostFrame where
  kind : Byte
  seq : Byte
  ack : Byte
  resend : Bool
  payload : List Byte
deriving DecidableEq, Repr

/-- The host's frame in the bytes shifted in an exchange, if it is valid (R160, R181): bytes after LEN + 8 are fill (R156). -/
def readHostFrame (sdi : List Byte) : Option HostFrame :=
  let len := readNat sdi 1
  if readByte sdi 0 = 0x5A ∧ len ≤ 120 ∧ len + 8 ≤ sdi.length
      ∧ readHalf sdi (6 + len) = crc (places sdi 1 (5 + len)) then
    some { kind := readByte sdi 2, seq := readByte sdi 3, ack := readByte sdi 4,
           resend := (readByte sdi 5).getLsbD 0, payload := places sdi 6 len }
  else
    none

end Sys2Proof.Machine
end

