-- ==== Sys2Proof/Machine/Flags.lean ====
section
/-! DEFINITION. Flags: what the Host Link computes from its state for a header (RACK, BUSY, CRCERR, MORE), for ATTN, for
the reply budget and for event admission. -/

namespace Sys2Proof.Machine

/-- The use of the reply budget: accepted requests without a reply plus REPLY frames in the queue (R164). -/
def Link.use (l : Link) : Nat := l.accepted.length + l.queue.countP OutFrame.isReply

/-- The event frames that stand in the outbound queue (R145). -/
def Link.events (l : Link) : Nat := l.queue.countP OutFrame.isEvent

/-- RACK: the last request sequence accepted, E − 1 (R158). -/
def Link.rack (l : Link) : Byte := l.e - 1

/-- The place `k` of the queue holds an offerable frame: a frame, at a place below 4 (R157). -/
def Link.offerable (l : Link) (k : Nat) : Bool := decide (k < 4 ∧ k < l.queue.length)

/-- When ATTN is asserted (R167): in CLOSED, and in OPEN while the frame at the cursor is offerable. -/
def Link.attnDue (l : Link) : Bool :=
  match l.state with
  | .closed => true
  | .opened => l.offerable l.cursor

/-- ATTN changes in the action that changes what it depends on (R167): every operation of the link ends with this. -/
def Link.refresh (l : Link) : Link := { l with attn := l.attnDue }

/-- The FLAGS byte of an offer (R158, R181): bit 0 MORE, bit 1 BUSY, bit 2 CRCERR. -/
def flagsByte (more busy crcErr : Bool) : Byte :=
  (if more then 1 else 0) + (if busy then 2 else 0) + (if crcErr then 4 else 0)

/-- BUSY: the budget's use stands at 8 (R158). -/
def Link.busy (l : Link) : Bool := decide (8 ≤ l.use)

/-- MORE, for an offer that is the frame at the cursor: the place after it is offerable too, in OPEN (R158). -/
def Link.more (l : Link) : Bool :=
  match l.state with
  | .closed => false
  | .opened => l.offerable (l.cursor + 1)

end Sys2Proof.Machine
end

