-- ==== Sys2Proof/Machine/Operands.lean ====
section
/-! DEFINITION. Operands: how an owner reads the payload of each request (checks included), and how a definition is
written in a reply (R183 to R186, Tables 1-2, 2-3 and 4-3). -/

namespace Sys2Proof.Machine

/-! ### PROBE.SET payload (R6, R184, Table 11-5) -/

/-- The number of data bytes of a DONE completion (R2). -/
def ProbeRecord.dataLength (r : ProbeRecord) : Nat :=
  match r.body with
  | .twoWire d => d.readLen
  | .analog _ => 2

/-- The resource that performs the probe (R2, R16). -/
def ProbeRecord.resource (r : ProbeRecord) : Resource :=
  match r.body with
  | .twoWire d => .tw d.port
  | .analog _ => .analog

/-- Address-mode code and target address in range (Table 1-2 row Address, R116). -/
def addressOk (mode : Byte) (addr : Half) : Bool :=
  (mode == 7 && decide (addr.toNat ≤ 127)) || (mode == 10 && decide (addr.toNat ≤ 1023))

/-- The mode a checked code names. -/
def modeOf (mode : Byte) : AddrMode := if mode = 10 then .ten else .seven

/-- The checks of a TWO_WIRE definition (Table 1-2), unused fields of the other kind included. -/
def twoWireOk (p : List Byte) : Bool :=
  decide (readNat p 3 ≤ 2) && addressOk (readByte p 4) (readHalf p 5)
    && decide (readNat p 7 ≤ 2) && allZero ((places p 8 2).drop (readNat p 7))
    && decide (readNat p 10 ≤ 4) && allZero ((places p 11 4).drop (readNat p 10))
    && (decide (readNat p 10 ≠ 0) || readByte p 15 == 0)
    && decide (1 ≤ readNat p 16 ∧ readNat p 16 ≤ 8) && decide (readNat p 17 ≤ 3)
    && allZero (places p 18 2)

/-- The TWO_WIRE fields of a checked payload. -/
def twoWireOf (p : List Byte) : TwoWire :=
  { port := Fin.ofNat 3 (readNat p 3), mode := modeOf (readByte p 4), addr := (readHalf p 5).setWidth 10,
    index := (places p 8 2).take (readNat p 7),
    prelude := if readNat p 10 = 0 then none
      else some { bytes := (places p 11 4).take (readNat p 10), settle := readByte p 15 },
    readLen := readNat p 16, retries := readNat p 17 }

/-- The checks of an ANALOG definition (Table 1-2). -/
def analogOk (p : List Byte) : Bool :=
  decide (readNat p 18 ≤ 9) && [1, 2, 4, 8, 16].contains (readNat p 19) && allZero (places p 3 15)

/-- The ANALOG fields of a checked payload. -/
def analogOf (p : List Byte) : Analog := { input := Fin.ofNat 10 (readNat p 18), samples := readNat p 19 }

/-- The kind part of a definition (Table 1-2 row Kind; R183: 1 TWO_WIRE, 2 ANALOG). -/
def readBody (p : List Byte) : Option ProbeBody :=
  if readByte p 1 = 1 then (if twoWireOk p then some (.twoWire (twoWireOf p)) else none)
  else if readByte p 1 = 2 then (if analogOk p then some (.analog (analogOf p)) else none)
  else none

/-- The Watch check for a set flag (Table 1-2 row Watch, R5). -/
def watchOk (dataLength : Nat) (p : List Byte) : Bool :=
  decide (readNat p 21 ≤ 7) && decide (readNat p 22 = 1 ∨ readNat p 22 = 2)
    && decide (readNat p 23 ≤ 1) && decide (readNat p 24 ≤ 1)
    && decide ((readWord p 25).toInt ≤ (readWord p 29).toInt)
    && decide (readNat p 21 + readNat p 22 ≤ dataLength)

/-- The watch part of a checked payload. -/
def watchOf (p : List Byte) : WatchPart :=
  { offset := readNat p 21, width := readNat p 22, order := if readByte p 23 = 1 then .little else .big,
    sign := if readByte p 24 = 1 then .signed else .unsigned, low := readWord p 25, high := readWord p 29,
    hysteresis := readHalf p 33 }

/-- A PROBE.SET definition, if it is valid (R6). The slot number is checked by `probeSlotOf`. -/
def readProbe (p : List Byte) : Option ProbeRecord :=
  match readBody p with
  | none => none
  | some body =>
    let limit := readNat p 2
    let r : ProbeRecord := { body := body, faultLimit := limit, watch := none }
    if limit = 0 ∨ 15 < limit then none
    else if readByte p 20 = 0 then (if allZero (places p 21 14) then some r else none)
    else if readByte p 20 = 1 then
      (if watchOk r.dataLength p then some { r with watch := some (watchOf p) } else none)
    else none

/-- The slot that byte 0 names, if it is one (Table 1-2 row Slot). -/
def probeSlotOf (p : List Byte) : Option (Fin 64) :=
  if h : readNat p 0 < 64 then some ⟨readNat p 0, h⟩ else none

/-- Bytes 1 and 2 of the arrangement: kind and fault limit. -/
def kindBytes (r : ProbeRecord) : List Byte :=
  match r.body with
  | .twoWire _ => [1, byteOf r.faultLimit]
  | .analog _ => [2, byteOf r.faultLimit]

/-- Bytes 3 to 19 of the arrangement: the fields of the kind, those of the other kind zero. -/
def bodyBytes : ProbeBody → List Byte
  | .twoWire d =>
    let pre := d.prelude.getD { bytes := [], settle := 0 }
    [byteOf d.port.val, d.mode.code] ++ be16 (d.addr.setWidth 16)
      ++ [byteOf d.index.length] ++ padTo 2 d.index
      ++ [byteOf pre.bytes.length] ++ padTo 4 pre.bytes ++ [pre.settle, byteOf d.readLen, byteOf d.retries, 0, 0]
  | .analog d => List.replicate 15 0 ++ [byteOf d.input.val, byteOf d.samples]

/-- Bytes 20 to 34 of the arrangement: the watch flag and the watch part. -/
def watchBytes : Option WatchPart → List Byte
  | none => List.replicate 15 0
  | some w => [1, byteOf w.offset, byteOf w.width, w.order.code, w.sign.code] ++ be32 w.low ++ be32 w.high
      ++ be16 w.hysteresis

/-- The record part of a PROBE.GET reply (R15, R184): the slot number, then the stored record, all zero for EMPTY. -/
def probeBytes (slot : Byte) : Option ProbeRecord → List Byte
  | none => slot :: List.replicate 34 0
  | some r => slot :: (kindBytes r ++ bodyBytes r.body ++ watchBytes r.watch)

/-! ### SWEEP.SET payload (R22, R185, Table 11-6) -/

/-- The sweep that byte 0 names, if it is one. -/
def sweepOf (p : List Byte) : Option SweepNo :=
  if h : readNat p 0 < 8 then some ⟨readNat p 0, h⟩ else none

/-- The trigger source with its fields, if they pass Table 2-3 (unused period, phase and chain sweep zero). -/
def readSource (p : List Byte) : Option Trigger :=
  let period := readHalf p 2
  let phase := readHalf p 4
  if readByte p 1 = 1 then
    (if period ≠ 0 ∧ phase.toNat < period.toNat ∧ readByte p 6 = 0 then some (.period period phase) else none)
  else if readByte p 1 = 2 then
    (if period = 0 ∧ phase = 0 ∧ readByte p 6 = 0 then some .host else none)
  else if readByte p 1 = 3 then
    (if h : period = 0 ∧ phase = 0 ∧ readNat p 6 < 8 then some (.chain ⟨readNat p 6, h.2.2⟩) else none)
  else none

/-- The policy codes, priority and notify pass Table 2-3. -/
def policiesOk (p : List Byte) : Bool :=
  decide (readNat p 9 ≤ 1) && decide (readNat p 10 ≤ 1) && decide (readNat p 11 ≤ 3) && decide (readNat p 12 ≤ 1)

/-- The list passes Table 2-3: length, slots, duplicates, unused places. -/
def sweepListOk (p : List Byte) : Bool :=
  let len := readNat p 13
  let used := (places p 14 16).take len
  decide (1 ≤ len ∧ len ≤ 16) && used.all (fun b => decide (b.toNat < 64)) && decide used.Nodup
    && allZero ((places p 14 16).drop len)

/-- The list of a checked payload: position k is the slot at offset 14 + k (R185). -/
def sweepListOf (p : List Byte) : List (Fin 64) :=
  ((places p 14 16).take (readNat p 13)).map (fun b => Fin.ofNat 64 b.toNat)

/-- The definition of a SWEEP.SET payload, or the status that grounds 3 and 4 of R22 give. -/
def readSweep (p : List Byte) : Except Status SweepDef :=
  match readSource p with
  | none => .error .badArg
  | some source =>
    if !policiesOk p then .error .badArg
    else if !sweepListOk p then .error .badList
    else .ok
      { list := sweepListOf p, source := source, passLimit := readHalf p 7,
        overrun := if readByte p 9 = 1 then .restart else .skip,
        faultPolicy := if readByte p 10 = 1 then .halt else .continue,
        priority := Fin.ofNat 4 (readNat p 11), notify := readByte p 12 == 1 }

/-- Bytes 1 to 6 of the arrangement: source, period, phase, chain sweep. -/
def sourceBytes (t : Trigger) : List Byte :=
  match t with
  | .period period phase => t.code :: (be16 period ++ be16 phase ++ [0])
  | .host => t.code :: List.replicate 5 0
  | .chain j => t.code :: (List.replicate 4 0 ++ [byteOf j.val])

/-- Bytes 1 to 29 of the arrangement for a definition in force, all zero in EMPTY (R44, R185). -/
def sweepBytes : Option SweepDef → List Byte
  | none => List.replicate 29 0
  | some d => sourceBytes d.source ++ be16 d.passLimit
      ++ [d.overrun.code, d.faultPolicy.code, byteOf d.priority.val, flagByte d.notify, byteOf d.list.length]
      ++ padTo 16 (d.list.map (fun k => byteOf k.val))

/-! ### RESULT.FETCH payload (R75, Table 4-3) -/

/-- Fetch modes with the fields they use (R76). -/
inductive FetchMode where
  | latest
  | exact (pass : Word)
  | newer (pass : Word) (waitMs : Half)
deriving DecidableEq, Repr

/-- A valid fetch. -/
structure Fetch where
  sweep : SweepNo
  first : Nat
  count : Nat
  mode : FetchMode
deriving DecidableEq, Repr

/-- The mode with its fields, if they pass R75. -/
def readMode (p : List Byte) : Option FetchMode :=
  let pass := readWord p 4
  let wait := readHalf p 8
  if readByte p 3 = 0 then (if pass = 0 ∧ wait = 0 then some .latest else none)
  else if readByte p 3 = 1 then (if wait = 0 then some (.exact pass) else none)
  else if readByte p 3 = 2 then
    (if wait ≠ 0 ∧ wait.toNat ≤ 60000 then some (.newer pass wait) else none)
  else none

/-- A RESULT.FETCH payload, if it is valid (R75). -/
def readFetch (p : List Byte) : Option Fetch :=
  match sweepOf p, readMode p with
  | some i, some mode =>
    if readNat p 1 ≤ 15 ∧ 1 ≤ readNat p 2 ∧ readNat p 2 ≤ 16 ∧ readNat p 1 + readNat p 2 ≤ 16 then
      some { sweep := i, first := readNat p 1, count := readNat p 2, mode := mode }
    else none
  | _, _ => none

/-! ### PORT payloads (R116, R121) -/

/-- A PORT.SET configuration, if it is valid (R121). -/
def readPortConfig (p : List Byte) : Option PortConfig :=
  if readNat p 1 ≤ 1 ∧ 1 ≤ readNat p 2 ∧ readNat p 2 ≤ 100 then
    some { rate := if readByte p 1 = 1 then .r400 else .r100, stretchMs := readByte p 2 }
  else none

/-- A PORT.XFER transfer, if it is valid (R116); the port is byte 0. -/
def readTransfer (ref : ReqRef) (p : List Byte) : Option Transfer :=
  let w := readNat p 4
  let r := readNat p 5
  if addressOk (readByte p 1) (readHalf p 2) ∧ w ≤ 16 ∧ r ≤ 16 ∧ (w ≠ 0 ∨ r ≠ 0)
      ∧ allZero ((places p 6 16).drop w) then
    some { ref := ref, mode := modeOf (readByte p 1), addr := (readHalf p 2).setWidth 10,
           write := (places p 6 16).take w, readLen := r }
  else none

/-! ### The place a PORT request names -/

/-- The owner a PORT request goes to by its first payload byte (R174). -/
def portOwnerOf (p : List Byte) : PortOwner :=
  if h : readNat p 0 < 3 then .tw ⟨readNat p 0, h⟩ else .block

/-- Ranges of a stored record (Table 1-1): what every record that PROBE.SET stores satisfies. -/
def TwoWire.inRange (d : TwoWire) : Bool :=
  decide (d.mode = .seven → d.addr.toNat ≤ 127) && decide (d.index.length ≤ 2)
    && (match d.prelude with
        | none => true
        | some q => decide (1 ≤ q.bytes.length ∧ q.bytes.length ≤ 4))
    && decide (1 ≤ d.readLen ∧ d.readLen ≤ 8) && decide (d.retries ≤ 3)

/-- Ranges of a watch part (R5). -/
def WatchPart.inRange (w : WatchPart) (dataLength : Nat) : Bool :=
  decide (w.offset ≤ 7) && decide (w.width = 1 ∨ w.width = 2) && decide (w.low.toInt ≤ w.high.toInt)
    && decide (w.offset + w.width ≤ dataLength)

/-- Ranges of a record (R2 to R5). -/
def ProbeRecord.inRange (r : ProbeRecord) : Bool :=
  (match r.body with
    | .twoWire d => d.inRange
    | .analog d => [1, 2, 4, 8, 16].contains d.samples)
    && decide (1 ≤ r.faultLimit ∧ r.faultLimit ≤ 15)
    && (match r.watch with
        | none => true
        | some w => w.inRange r.dataLength)

/-- Ranges of a sweep definition (Table 2-1). -/
def SweepDef.inRange (d : SweepDef) : Bool :=
  decide (1 ≤ d.list.length ∧ d.list.length ≤ 16) && decide d.list.Nodup
    && (match d.source with
        | .period period phase => decide (period ≠ 0 ∧ phase.toNat < period.toNat)
        | .host | .chain _ => true)

end Sys2Proof.Machine
end

