-- ==== Sys2Proof/Machine/Ops.lean ====
section
/-! DEFINITION. The named operations that every block uses: reading and replacing one part of State, replies, events, and
the arbiter of a resource. -/

namespace Sys2Proof.Machine

/-! ### One part of State -/

def State.slot (s : State) (k : Fin 64) : ProbeSlot := s.slots[k]
def State.sweep (s : State) (i : SweepNo) : Sweep := s.sweeps[i]
def State.pagesOf (s : State) (i : SweepNo) : Pages := s.pages[i]
def State.port (s : State) (p : PortNo) : Port := s.ports[p]
def State.watch (s : State) (k : Fin 64) : WatchSlot := s.watches[k]

def State.setSlot (s : State) (k : Fin 64) (x : ProbeSlot) : State := { s with slots := s.slots.set k x }
def State.setSweep (s : State) (i : SweepNo) (x : Sweep) : State := { s with sweeps := s.sweeps.set i x }
def State.setPages (s : State) (i : SweepNo) (x : Pages) : State := { s with pages := s.pages.set i x }
def State.setPort (s : State) (p : PortNo) (x : Port) : State := { s with ports := s.ports.set p x }
def State.setWatch (s : State) (k : Fin 64) (x : WatchSlot) : State := { s with watches := s.watches.set k x }
def State.setWaiters (s : State) (x : List Waiter) : State := { s with waiters := x }
def State.setConv (s : State) (x : Converter) : State := { s with conv := x }
def State.setInbox (s : State) (x : List WatchItem) : State := { s with inbox := x }
def State.setHand (s : State) (x : HandOff) : State := { s with hand := x }
def State.setLink (s : State) (x : Link) : State := { s with link := x }

/-- Saturating addition (section 0.5, Arithmetic). -/
def satAdd (limit a b : Nat) : Nat := min limit (a + b)

/-! ### The outbound queue -/

/-- A frame is appended with SEQ T, and T becomes T + 1 (R165). -/
def Link.append (l : Link) (kind : OutKind) (payload : List Byte) : Link :=
  Link.refresh
    { l with queue := l.queue ++ [{ kind := kind, seq := l.t, payload := payload, sent := false }], t := l.t + 1 }

/-- The request is in a set of the link as that request, not by its SEQ (R155). -/
def holds (set : List ReqRef) (ref : ReqRef) : Bool := set.any (fun r => r.id == ref.id)

/-- The set without the request. -/
def dropRef (set : List ReqRef) (ref : ReqRef) : List ReqRef := set.eraseP (fun r => r.id == ref.id)

/-- A reply is handed to the link (R165): appended for an accepted request, discarded for an orphan. The payload opens
with the SEQ of the request (R177). -/
def Link.reply (l : Link) (ref : ReqRef) (body : List Byte) : Link :=
  if holds l.accepted ref then
    Link.append { l with accepted := dropRef l.accepted ref } (.reply ref.replyKind) (ref.seq :: body)
  else { l with orphans := dropRef l.orphans ref }

/-- A block answers a request with a status and its items (R177). -/
def State.reply (s : State) (ref : ReqRef) (status : Status) (items : List Byte) : State :=
  s.setLink (s.link.reply ref (status.code :: items))

/-- Event admission (R145): with fewer than 16 event frames in the queue the event is appended, carrying the dropped-event
count, which becomes 0; otherwise it is discarded and counted. -/
def State.offerEvent (s : State) (kind : OutKind) (items : List Byte) : State :=
  if s.link.events < 16 then
    { s with link := s.link.append kind (byteOf s.dropped :: items), dropped := 0 }
  else { s with dropped := satAdd 255 s.dropped 1 }

/-! ### Hand-off lists -/

/-- The request at the head of a hand-off list, if it is of the kind `k`, with the rest of the list (R175). -/
def takeHead (l : List Request) (k : ReqKind) : Option (Request × List Request) :=
  match l with
  | [] => none
  | r :: rest => if r.kind = k then some (r, rest) else none

/-! ### Arbiters of resources -/

def State.arb (s : State) : Resource → Arbiter
  | .tw p => (s.port p).arb
  | .analog => s.conv.arb

def State.setArb (s : State) (r : Resource) (a : Arbiter) : State :=
  match r with
  | .tw p => s.setPort p { s.port p with arb := a }
  | .analog => s.setConv { s.conv with arb := a }

/-- A request is placed in the pending collection with a new age (R88). -/
def Arbiter.place (a : Arbiter) (q : ProbeRequest) : Arbiter :=
  { a with age := a.age + 1, pending := a.pending ++ [{ req := q, age := a.age + 1, preludeDone := false }] }

/-- A completion is handed to the Sweep Engine (R92). -/
def Arbiter.hand (a : Arbiter) (c : Completion) : Arbiter := { a with done := a.done ++ [c] }

/-- The completion of a request that meets a BLOCKED or CLEARING port (R89, R93, R95). -/
def blockedCompletion (q : ProbeRequest) (now : Time) : Completion :=
  { req := q, status := .portBlocked, data := [], attempts := 0, time := now }

end Sys2Proof.Machine
end

