-- ==== Sys2Proof/Machine/Arbiters.lean ====
section
/-! DEFINITION. The arbiters (Chapter 5): taking issues, the order of grants, withdrawal, the emptying of a pending
collection, and the held configuration; the commands ARBITER_TAKES_ISSUE and HOST_ENTRY_ARRIVAL. -/

namespace Sys2Proof.Machine

/-- Whether the arbiter of the port places what arrives (R89, R90): IDLE or ACTIVE. -/
def Port.places (q : Port) : Bool :=
  match q.state with
  | .idle | .active => true
  | .blocked | .clearing => false

/-! ### Taking issues (R89) -/

/-- A port arbiter takes one issued request. -/
def Port.arrive (q : Port) (now : Time) (r : ProbeRequest) : Port :=
  if q.places then { q with arb := q.arb.place r } else { q with arb := q.arb.hand (blockedCompletion r now) }

/-- The first issued request is taken. -/
def Port.takeIssue (q : Port) (now : Time) : Port :=
  match q.arb.issues with
  | [] => q
  | r :: rest => { q with arb := { q.arb with issues := rest } }.arrive now r

/-- The ANALOG arbiter places every issued request. -/
def Converter.takeIssue (c : Converter) : Converter :=
  match c.arb.issues with
  | [] => c
  | r :: rest => { c with arb := Arbiter.place { c.arb with issues := rest } r }

/-- Everything issued to the arbiter is taken, in the order it was issued. -/
def Port.takeIssues (q : Port) (now : Time) : Port :=
  q.arb.issues.foldl (fun q r => q.arrive now r) { q with arb := { q.arb with issues := [] } }

def Converter.takeIssues (c : Converter) : Converter :=
  { c with arb := c.arb.issues.foldl Arbiter.place { c.arb with issues := [] } }

/-- ARBITER_TAKES_ISSUE (R89). -/
def execArbiterTakesIssue (r : Resource) (s : State) : Host.Outcome State Fault Refusal :=
  match r with
  | .tw p => .next (s.setPort p ((s.port p).takeIssue s.time))
  | .analog => .next (s.setConv s.conv.takeIssue)

/-! ### The order of grants (R91, Table 5-2) -/

/-- Higher rank first, and the older age within a rank. -/
def ProbeEntry.before (a b : ProbeEntry) : Bool :=
  decide (b.req.priority < a.req.priority) || (a.req.priority == b.req.priority && decide (a.age < b.age))

/-- Among direct transfers, the older age. -/
def TransferEntry.before (a b : TransferEntry) : Bool := decide (a.age < b.age)

/-- The member that is before every other. -/
def firstBy {α : Type} (before : α → α → Bool) : List α → Option α
  | [] => none
  | x :: xs =>
    match firstBy before xs with
    | none => some x
    | some y => if before y x then some y else some x

/-- A member put in its place of an ordered list. -/
def insertBy {α : Type} (before : α → α → Bool) (x : α) : List α → List α
  | [] => [x]
  | y :: ys => if before y x then y :: insertBy before x ys else x :: y :: ys

/-- The members in the order in which they would be granted (R95). -/
def grantOrder {α : Type} (before : α → α → Bool) (l : List α) : List α := l.foldr (insertBy before) []

/-! ### Withdrawal (R94) -/

def ProbeEntry.ofSweep (i : SweepNo) (e : ProbeEntry) : Bool := e.req.sweep == i

/-- What a withdrawal of sweep `i` leaves of a list of entries. -/
def keepOthers (i : SweepNo) (l : List ProbeEntry) : List ProbeEntry := l.filter (fun e => !e.ofSweep i)

/-- The positions a withdrawal of sweep `i` removes from a list of entries. -/
def positionsOf (i : SweepNo) (l : List ProbeEntry) : List (Fin 16) :=
  (l.filter (ProbeEntry.ofSweep i)).map (fun e => e.req.position)

/-- A port arbiter takes a withdrawal: what was issued to it before is taken first (log 5). -/
def Port.withdraw (q : Port) (now : Time) (i : SweepNo) : Port :=
  let t := q.takeIssues now
  { t with arb := { t.arb with pending := keepOthers i t.arb.pending },
           settling := t.settling.filter (fun m => !m.entry.ofSweep i) }

/-- Its answer: the positions removed from the pending collection and the settling set. -/
def Port.withdrawn (q : Port) (now : Time) (i : SweepNo) : List (Fin 16) :=
  let t := q.takeIssues now
  positionsOf i t.arb.pending ++ positionsOf i (t.settling.map Settling.entry)

def Converter.withdraw (c : Converter) (i : SweepNo) : Converter :=
  let t := c.takeIssues
  { t with arb := { t.arb with pending := keepOthers i t.arb.pending } }

def Converter.withdrawn (c : Converter) (i : SweepNo) : List (Fin 16) := positionsOf i c.takeIssues.arb.pending

/-- A withdrawal is handed to all four arbiters in the action of the Sweep Engine (R94). -/
def State.withdraw (s : State) (i : SweepNo) : State :=
  { s with ports := Vector.ofFn fun p => (s.port p).withdraw s.time i, conv := s.conv.withdraw i }

/-- The four answers together. -/
def State.withdrawn (s : State) (i : SweepNo) : List (Fin 16) :=
  (s.port 0).withdrawn s.time i ++ (s.port 1).withdrawn s.time i ++ (s.port 2).withdrawn s.time i ++ s.conv.withdrawn i

/-! ### Direct transfers at the arbiter (R90, R118) -/

/-- The reply to a PORT.XFER: port, bytes read, completion time (R118). -/
def State.transferReply (s : State) (p : PortNo) (t : Transfer) (status : Status) (data : List Byte) (time : Time) :
    State :=
  s.reply t.ref status ([byteOf p.val, byteOf data.length] ++ data ++ be32 time)

/-- The arbiter takes one direct transfer (R90): placed with rank 4 and a new age, refused BUSY when eight are pending, or
answered PORT_BLOCKED. -/
def State.transferArrives (s : State) (p : PortNo) (t : Transfer) : State :=
  let q := s.port p
  if q.places then
    (if q.transfers.length < 8 then
      s.setPort p { q with transfers := q.transfers ++ [{ xfer := t, age := q.arb.age + 1 }],
                           arb := { q.arb with age := q.arb.age + 1 } }
    else s.transferReply p t .busy [] 0)
  else s.transferReply p t .portBlocked [] s.time

/-- HOST_ENTRY_ARRIVAL (R90): the arbiter takes the first direct transfer handed to it. -/
def execHostEntryArrival (p : PortNo) (s : State) : Host.Outcome State Fault Refusal :=
  match (s.port p).arrivals with
  | [] => .next s
  | t :: rest => .next ((s.setPort p { s.port p with arrivals := rest }).transferArrives p t)

/-- Every direct transfer handed to the arbiter is taken, in the order it was handed (R90, log 8). -/
def State.takeArrivals (s : State) (p : PortNo) : State :=
  (s.port p).arrivals.foldl (fun s t => s.transferArrives p t) (s.setPort p { s.port p with arrivals := [] })

/-! ### A port that blocks (R95) -/

/-- The pending collection is emptied in grant order: direct transfers are answered PORT_BLOCKED, probe requests complete
PORT_BLOCKED. -/
def State.emptyPending (s : State) (p : PortNo) : State :=
  let q := s.port p
  let ended := (grantOrder ProbeEntry.before q.arb.pending).map (fun e => blockedCompletion e.req s.time)
  let s1 := s.setPort p { q with transfers := [], arb := { q.arb with pending := [], done := q.arb.done ++ ended } }
  (grantOrder TransferEntry.before q.transfers).foldl (fun s t => s.transferReply p t.xfer .portBlocked [] s.time) s1

/-! ### Held configuration (R97 to R99) -/

/-- The items of a PORT.SET reply: the port and the configuration in force (R121). -/
def configItems (p : PortNo) (c : PortConfig) : List Byte := [byteOf p.val, c.rate.code, c.stretchMs]

/-- A held configuration becomes the port's, and its PORT.SET is answered OK (R99). -/
def State.applyHeld (s : State) (p : PortNo) : State :=
  match (s.port p).held with
  | none => s
  | some h => (s.setPort p { s.port p with config := h.config, held := none }).reply h.ref .ok (configItems p h.config)

/-- A valid PORT.SET reaches the arbiter (R97, R98): applied at once with no granted entry, held otherwise; a configuration
held before is superseded and its PORT.SET answered OK. -/
def State.offerConfig (s : State) (p : PortNo) (ref : ReqRef) (c : PortConfig) : State :=
  let q := s.port p
  match q.granted with
  | none => (s.setPort p { q with config := c }).reply ref .ok (configItems p c)
  | some _ =>
    let s1 := s.setPort p { q with held := some { config := c, ref := ref } }
    match q.held with
    | none => s1
    | some old => s1.reply old.ref .ok (configItems p q.config)

end Sys2Proof.Machine
end

