-- ==== Sys2Proof/Machine/Ports.lean ====
section
/-! DEFINITION. The two-wire ports (Chapter 6): the bus sequences, the end of a grant, the bus commands, the stretch timer,
the settle timer, and the PORT requests. -/

namespace Sys2Proof.Machine

/-! ### Bus sequences (R103 to R105, Tables 6-2 and 6-3) -/

/-- What the port does on the bus, condition by condition and byte by byte. A byte it sends is acknowledged or not by the
target; a byte it receives (`read`) is acknowledged by the port, with the acknowledge bit `ack` (R104). -/
inductive BusItem where
  | start
  | repeatedStart
  | address (b : Byte)
  | write (b : Byte)
  | read (ack : Bool)
  | stop
deriving DecidableEq, Repr

/-- The address bytes of a target addressed for a write (R105): one for 7 bits, first and second for 10 bits. -/
def addressForWrite (mode : AddrMode) (addr : BitVec 10) : List Byte :=
  match mode with
  | .seven => [byteOf (2 * addr.toNat)]
  | .ten => [byteOf (0xF0 + 2 * (addr.toNat / 256)), byteOf addr.toNat]

/-- The address byte that opens a read (R105); for 10 bits, the first address byte alone. -/
def addressForRead (mode : AddrMode) (addr : BitVec 10) : Byte :=
  match mode with
  | .seven => byteOf (2 * addr.toNat + 1)
  | .ten => byteOf (0xF0 + 2 * (addr.toNat / 256) + 1)

/-- The `n` received bytes of an operation: the port acknowledges every one but the last (R104). -/
def readBytes : Nat → List BusItem
  | 0 => []
  | n + 1 => List.replicate n (.read true) ++ [.read false]

/-- The sequence of one phase or transfer that writes the bytes `w` and reads `r` bytes (Tables 6-2 and 6-3): a 7-bit
target is addressed for a read at once when nothing is written, a 10-bit target never is. -/
def busSequence (mode : AddrMode) (addr : BitVec 10) (w : List Byte) (r : Nat) : List BusItem :=
  let written := (addressForWrite mode addr).map .address ++ w.map .write
  let reading := .address (addressForRead mode addr) :: readBytes r
  if r = 0 then .start :: written ++ [.stop]
  else if w = [] ∧ mode = .seven then .start :: reading ++ [.stop]
  else .start :: written ++ [.repeatedStart] ++ reading ++ [.stop]

/-- Bit times of an item: 1 for a condition, 9 for a byte with its acknowledge bit (R103, R104). -/
def BusItem.bitTimes : BusItem → Nat
  | .start | .repeatedStart | .stop => 1
  | .address _ | .write _ | .read _ => 9

/-- Bit times of a sequence without stretching (Table 6-2, note c). -/
def bitTimes (l : List BusItem) : Nat := (l.map BusItem.bitTimes).sum

/-- The bit time in nanoseconds: 10 µs or 2.5 µs (R102). -/
def Rate.bitTimeNs : Rate → Nat
  | .r100 => 10000
  | .r400 => 2500

/-- The sequence of a phase of a two-wire probe (Table 6-2). -/
def phaseSequence (d : TwoWire) : Phase → List BusItem
  | .prelude => busSequence d.mode d.addr ((d.prelude.map Prelude.bytes).getD []) 0
  | .read => busSequence d.mode d.addr d.index d.readLen

/-- The sequence the port is performing for its granted entry; a clear has none. -/
def PortWork.sequence : PortWork → List BusItem
  | .probe e phase _ =>
    match e.req.copy.body with
    | .twoWire d => phaseSequence d phase
    | .analog _ => []
  | .transfer t => busSequence t.xfer.mode t.xfer.addr t.xfer.write t.xfer.readLen
  | .clear _ _ => []

/-- Both lines stand released while the port performs nothing (Table 6-1). -/
def Port.linesReleased (q : Port) : Bool :=
  match q.state with
  | .idle | .blocked => true
  | .active | .clearing => false

/-! ### Grants (R91, R106) -/

/-- The first phase the request still needs (R106). -/
def ProbeEntry.firstPhase (e : ProbeEntry) : Phase :=
  match e.req.copy.body with
  | .twoWire d => if d.prelude.isSome && !e.preludeDone then .prelude else .read
  | .analog _ => .read

/-- A grant at a port arbiter (R91): due with no granted entry, a non-empty collection and a port that is not BLOCKED.
Direct transfers have rank 4, above every probe request. -/
def Port.grant (q : Port) : Port :=
  if q.granted.isSome ∨ q.state = .blocked then q
  else
    match firstBy TransferEntry.before q.transfers with
    | some t =>
      { q with transfers := q.transfers.erase t, state := .active,
               granted := some { work := .transfer t, config := q.config } }
    | none =>
      match firstBy ProbeEntry.before q.arb.pending with
      | none => q
      | some e =>
        { q with arb := { q.arb with pending := q.arb.pending.erase e }, state := .active,
                 granted := some { work := .probe e e.firstPhase 1, config := q.config } }

/-! ### The end of a grant (R92) -/

/-- Steps 1 to 4 of R92: the entry is released and the port takes its new state; `outcome` hands the outcome on; a port
that has entered BLOCKED empties its pending collection; a held configuration is applied. -/
def State.endGrant (s : State) (p : PortNo) (after : PortState) (outcome : State → State) : State :=
  let s1 := s.setPort p { s.port p with granted := none, stretch := none, state := after }
  let s2 := outcome s1
  let s3 := if after = .blocked then s2.emptyPending p else s2
  s3.applyHeld p

/-- A probe request ends at the port with a status; the completion time is the time of the end (R108, R109). -/
def State.finishProbe (s : State) (p : PortNo) (after : PortState) (e : ProbeEntry) (status : CompStatus)
    (data : List Byte) (attempts : Nat) : State :=
  s.endGrant p after fun t =>
    t.setPort p { t.port p with
      arb := (t.port p).arb.hand { req := e.req, status := status, data := data, attempts := attempts, time := t.time } }

/-- A direct transfer ends at the port with a status (R117, R118). -/
def State.finishTransfer (s : State) (p : PortNo) (after : PortState) (t : TransferEntry) (status : CompStatus)
    (data : List Byte) : State :=
  s.endGrant p after fun u => u.transferReply p t.xfer status.status data u.time

/-- The cause and the time of an entry to BLOCKED are recorded (R114). -/
def State.recordBlock (s : State) (p : PortNo) (cause : BlockCause) : State :=
  s.setPort p { s.port p with lastBlock := some (cause, s.time) }

/-- A blocking fault ends the granted probe phase or transfer (R112, R113, R114). -/
def State.blockingFault (s : State) (p : PortNo) (cause : BlockCause) (w : PortWork) : State :=
  match w with
  | .probe e _ attempt => (s.recordBlock p cause).finishProbe p .blocked e cause.status [] attempt
  | .transfer t => (s.recordBlock p cause).finishTransfer p .blocked t cause.status []
  | .clear _ _ => s

/-- A clear ends (R120): reply OK and IDLE, or STUCK and BLOCKED. -/
def State.finishClear (s : State) (p : PortNo) (ref : ReqRef) (pulses : Nat) (cleared : Bool) : State :=
  s.endGrant p (if cleared then .idle else .blocked) fun t =>
    t.reply ref (if cleared then .ok else .stuck) [byteOf p.val, byteOf pulses]

/-- The work in progress, if SCL is not being held low: a bus operation waits while the stretch timer runs (R104, R112). -/
def Port.running (q : Port) : Option PortWork :=
  match q.stretch, q.granted with
  | none, some g => some g.work
  | _, _ => none

/-! ### Bus commands -/

/-- The granted entry with another work and the configuration of its grant. -/
def State.setWork (s : State) (p : PortNo) (w : PortWork) : State :=
  s.setPort p { s.port p with granted := (s.port p).granted.map (fun g => { g with work := w }) }

/-- END_OF_PRELUDE_PHASE (R107, R93): with a settle time the request enters the settling set, without one its read phase
begins within the grant. -/
def execEndOfPreludePhase (p : PortNo) (s : State) : Host.Outcome State Fault Refusal :=
  match (s.port p).running with
  | some (.probe e .prelude _) =>
    match e.req.copy.body with
    | .twoWire d =>
      match d.prelude with
      | none => .next s
      | some pre =>
        if pre.settle = 0 then .next (s.setWork p (.probe e .read 1))
        else
          .next (s.endGrant p .idle fun t =>
            t.setPort p { t.port p with
              settling := (t.port p).settling
                ++ [{ entry := { e with preludeDone := true }, expiry := t.time + msTime pre.settle.toNat }] })
    | .analog _ => .next s
  | _ => .next s

/-- READ_PHASE_END (R108): the request completes DONE with as many bytes as its read length. -/
def execReadPhaseEnd (p : PortNo) (data : List Byte) (s : State) : Host.Outcome State Fault Refusal :=
  match (s.port p).running with
  | some (.probe e .read attempt) =>
    if data.length = e.req.copy.dataLength then .next (s.finishProbe p .idle e .done data attempt) else .next s
  | _ => .next s

/-- The attempts a phase may make: retries + 1 (R3, R110). -/
def maxAttempts (r : ProbeRecord) : Nat :=
  match r.body with
  | .twoWire d => d.retries + 1
  | .analog _ => 1

/-- ADDR_NAK (R110): the next attempt of the phase, or the end with ADDR_NAK; a direct transfer makes no retry (R117). -/
def execAddrNak (p : PortNo) (k : Nat) (s : State) : Host.Outcome State Fault Refusal :=
  match (s.port p).running with
  | none => .next s
  | some w =>
    match w.sequence[k]? with
    | some (.address _) =>
      match w with
      | .probe e phase attempt =>
        if attempt < maxAttempts e.req.copy then .next (s.setWork p (.probe e phase (attempt + 1)))
        else .next (s.finishProbe p .idle e .addrNak [] attempt)
      | .transfer t => .next (s.finishTransfer p .idle t .addrNak [])
      | .clear _ _ => .next s
    | _ => .next s

/-- DATA_NAK (R111): the operation ends with DATA_NAK, without retry. -/
def execDataNak (p : PortNo) (k : Nat) (s : State) : Host.Outcome State Fault Refusal :=
  match (s.port p).running with
  | none => .next s
  | some w =>
    match w.sequence[k]? with
    | some (.write _) =>
      match w with
      | .probe e _ attempt => .next (s.finishProbe p .idle e .dataNak [] attempt)
      | .transfer t => .next (s.finishTransfer p .idle t .dataNak [])
      | .clear _ _ => .next s
    | _ => .next s

/-- CONTENTION (R113): the operation ends with CONTENTION and the port blocks. A clear is not judged for contention (R120). -/
def execContention (p : PortNo) (s : State) : Host.Outcome State Fault Refusal :=
  match (s.port p).granted with
  | none => .next s
  | some g => .next (s.blockingFault p .contention g.work)

/-- DIRECT_TRANSFER_END (R117): the transfer ends OK with as many bytes as its read length. -/
def execDirectTransferEnd (p : PortNo) (data : List Byte) (s : State) : Host.Outcome State Fault Refusal :=
  match (s.port p).running with
  | some (.transfer t) =>
    if data.length = t.xfer.readLen then .next (s.finishTransfer p .idle t .done data) else .next s
  | _ => .next s

/-- CLEAR_END (R120): after at most 9 pulses, and no fewer than the clear is known to have made. -/
def execClearEnd (p : PortNo) (pulses : Nat) (linesHigh : Bool) (s : State) : Host.Outcome State Fault Refusal :=
  match (s.port p).running with
  | some (.clear ref made) =>
    if made ≤ pulses ∧ pulses ≤ 9 then .next (s.finishClear p ref pulses linesHigh) else .next s
  | _ => .next s

/-! ### The stretch timer (R112) -/

/-- STRETCHING: the stretch timer starts with the timeout in force at the grant. In a clear the pulses made so far are
noted, for the reply if the timer expires (R120, log 17). -/
def execStretching (p : PortNo) (pulses : Nat) (s : State) : Host.Outcome State Fault Refusal :=
  let q := s.port p
  match q.stretch, q.granted with
  | none, some g =>
    let expiry := some (s.time + msTime g.config.stretchMs.toNat)
    match g.work with
    | .clear ref made =>
      if made ≤ pulses ∧ pulses ≤ 9 then
        .next (s.setPort p { q with stretch := expiry, granted := some { g with work := .clear ref pulses } })
      else .next s
    | .probe _ _ _ | .transfer _ => .next (s.setPort p { q with stretch := expiry })
  | _, _ => .next s

/-- SCL_RISES: the timer is cancelled and the operation goes on. -/
def execSclRises (p : PortNo) (s : State) : Host.Outcome State Fault Refusal :=
  .next (s.setPort p { s.port p with stretch := none })

/-- STRETCH_TIMER_EXPIRY, at its time: a probe or transfer ends STRETCH_TIMEOUT and the port blocks; a clear ends STUCK. -/
def execStretchTimerExpiry (p : PortNo) (s : State) : Host.Outcome State Fault Refusal :=
  match (s.port p).stretch, (s.port p).granted with
  | some expiry, some g =>
    if expiry = s.time then
      match g.work with
      | .clear ref pulses => .next (s.finishClear p ref pulses false)
      | .probe _ _ _ | .transfer _ => .next (s.blockingFault p .stretchTimeout g.work)
    else .next s
  | _, _ => .next s

/-! ### The settle timer (R93) -/

/-- SETTLE_EXPIRY, at its time: the request rejoins the pending collection with its age, or completes PORT_BLOCKED. -/
def execSettleExpiry (p : PortNo) (k : Nat) (s : State) : Host.Outcome State Fault Refusal :=
  let q := s.port p
  match q.settling[k]? with
  | none => .next s
  | some m =>
    if m.expiry = s.time then
      let rest := q.settling.eraseIdx k
      if q.places then
        .next (s.setPort p { q with settling := rest, arb := { q.arb with pending := q.arb.pending ++ [m.entry] } })
      else
        .next (s.setPort p { q with settling := rest, arb := q.arb.hand (blockedCompletion m.entry.req s.time) })
    else .next s

/-! ### PORT requests (sections 6.7 to 6.9) -/

/-- The hand-off list of a port owner (R174). -/
def HandOff.ports (h : HandOff) : PortOwner → List Request
  | .tw p => h.tw[p]
  | .block => h.portsBlock

def HandOff.setPorts (h : HandOff) (o : PortOwner) (l : List Request) : HandOff :=
  match o with
  | .tw p => { h with tw := h.tw.set p l }
  | .block => { h with portsBlock := l }

/-- The request of kind `k` at the head of a port owner's list, and the state without it (R175). -/
def State.takePort (s : State) (o : PortOwner) (k : ReqKind) : Option (Request × State) :=
  match takeHead (s.hand.ports o) k with
  | none => none
  | some (r, rest) => some (r, s.setHand (s.hand.setPorts o rest))

/-- PORT_SET (R121): refused BAD_ARG, or handed to the arbiter. The block answers for a port above 2 with the number as
given (R174). -/
def execPortSet (o : PortOwner) (s : State) : Host.Outcome State Fault Refusal :=
  match s.takePort o .portSet with
  | none => .next s
  | some (r, t) =>
    match o with
    | .block => .next (t.reply r.ref .badArg [readByte r.payload 0, 0, 0])
    | .tw p =>
      match readPortConfig r.payload with
      | none => .next (t.reply r.ref .badArg (configItems p (t.port p).config))
      | some c => .next (t.offerConfig p r.ref c)

/-- Number of entries in a port arbiter's pending collection: probe requests and direct transfers. -/
def Port.pendingCount (q : Port) : Nat := q.arb.pending.length + q.transfers.length

/-- The held configuration in a PORT.GET reply: whether one is held, its rate and its stretch timeout (R122). The spec gives
the last two only when one is held; their zeros when none is are the model's (DESIGN CHOICE, log 14). -/
def heldBytes : Option HeldConfig → List Byte
  | none => [0, 0, 0]
  | some h => [1, h.config.rate.code, h.config.stretchMs]

/-- The last-block record in a PORT.GET reply: cause and time (R122, R153). -/
def lastBlockBytes : Option (BlockCause × Time) → List Byte
  | none => 0xFF :: be32 0
  | some (cause, time) => cause.status.code :: be32 time

/-- The items of a PORT.GET reply (R122). -/
def portItems (p : PortNo) (q : Port) : List Byte :=
  [byteOf p.val, q.state.code, q.config.rate.code, q.config.stretchMs] ++ heldBytes q.held
    ++ [byteOf q.pendingCount, byteOf q.settling.length] ++ lastBlockBytes q.lastBlock

/-- PORT_GET (R122). A BAD_ARG reply of the block carries the port number as given, the rest zero (R174, R177). -/
def execPortGet (o : PortOwner) (s : State) : Host.Outcome State Fault Refusal :=
  match s.takePort o .portGet with
  | none => .next s
  | some (r, t) =>
    match o with
    | .block => .next (t.reply r.ref .badArg (readByte r.payload 0 :: List.replicate 13 0))
    | .tw p => .next (t.reply r.ref .ok (portItems p (t.port p)))

/-- PORT_CLEAR (R119, R90): on a BLOCKED port the clear is granted at once and the port becomes CLEARING; otherwise it is
answered NOT_BLOCKED with 0 pulses. In either case the transfers handed to the arbiter before it are taken first, since the
arbiter takes host entries in order (R90, log 8). -/
def execPortClear (o : PortOwner) (s : State) : Host.Outcome State Fault Refusal :=
  match s.takePort o .portClear with
  | none => .next s
  | some (r, t) =>
    match o with
    | .block => .next (t.reply r.ref .badArg [readByte r.payload 0, 0])
    | .tw p =>
      let u := t.takeArrivals p
      if (u.port p).state = .blocked then
        .next (u.setPort p { u.port p with
          state := .clearing, granted := some { work := .clear r.ref 0, config := (u.port p).config } })
      else .next (u.reply r.ref .notBlocked [byteOf p.val, 0])

/-- PORT_XFER (R116): refused BAD_ARG, or handed to the arbiter. -/
def execPortXfer (o : PortOwner) (s : State) : Host.Outcome State Fault Refusal :=
  match s.takePort o .portXfer with
  | none => .next s
  | some (r, t) =>
    match o with
    | .block => .next (t.reply r.ref .badArg ([readByte r.payload 0, 0] ++ be32 0))
    | .tw p =>
      match readTransfer r.ref r.payload with
      | none => .next (t.reply r.ref .badArg ([byteOf p.val, 0] ++ be32 0))
      | some x => .next (t.setPort p { t.port p with arrivals := (t.port p).arrivals ++ [x] })

end Sys2Proof.Machine
end

