-- ==== Sys2Proof/Machine/Converter.lean ====
section
/-! DEFINITION. The analog converter (Chapter 7), and the command GRANT for all four arbiters. -/

namespace Sys2Proof.Machine

/-- The samples count of the granted request's definition copy (R126). -/
def Conversion.samples (c : Conversion) : Nat :=
  match c.entry.req.copy.body with
  | .analog d => d.samples
  | .twoWire _ => 1

/-- The wake lasts 50 µs (R125). -/
def wakeTime : Time := 50

/-- When `n` samples of 20 µs have ended (R126). -/
def Conversion.endOf (c : Conversion) (n : Nat) : Time := c.since + BitVec.ofNat 32 (20 * n)

/-- A grant at the ANALOG arbiter (R91, R125, R128): the oldest request of highest priority; a converter that is OFF wakes
first, a READY one begins its samples; a running idle timer is cancelled. -/
def Converter.grant (c : Converter) (now : Time) : Converter :=
  if c.granted.isSome then c
  else
    match firstBy ProbeEntry.before c.arb.pending with
    | none => c
    | some e =>
      { c with arb := { c.arb with pending := c.arb.pending.erase e },
               granted := some { entry := e, since := now, taken := 0, sum := 0 },
               power := if c.power = .off then .waking else .converting,
               idleTimer := none }

/-- GRANT (R91). -/
def execGrant (r : Resource) (s : State) : Host.Outcome State Fault Refusal :=
  match r with
  | .tw p => .next (s.setPort p (s.port p).grant)
  | .analog => .next (s.setConv (s.conv.grant s.time))

/-- END_OF_WAKE (R125), 50 µs after the grant: the converter begins the samples. -/
def execEndOfWake (s : State) : Host.Outcome State Fault Refusal :=
  match s.conv.power, s.conv.granted with
  | .waking, some c =>
    if s.time = c.since + wakeTime then
      .next (s.setConv { s.conv with power := .converting, granted := some { c with since := s.time } })
    else .next s
  | _, _ => .next s

/-- The idle timer as the converter starts it (R128, R129): none for a delay of 0. -/
def idleExpiry (now : Time) (delay : Byte) : Option Time := if delay = 0 then none else some (now + msTime delay.toNat)

/-- The two data bytes of a result: the average of the samples, rounded toward zero (R127). -/
def conversionData (sum samples : Nat) : List Byte := be16 (BitVec.ofNat 16 (sum / samples))

/-- END_OF_CONVERSION (R127), when the last sample ends: the request completes DONE with attempts 1, the converter becomes
READY and starts its idle timer. -/
def execEndOfConversion (v : Sample) (s : State) : Host.Outcome State Fault Refusal :=
  match s.conv.power, s.conv.granted with
  | .converting, some c =>
    if c.taken + 1 = c.samples ∧ s.time = c.endOf c.samples then
      let ended : Completion := { req := c.entry.req, status := .done, data := conversionData (c.sum + v.toNat) c.samples,
                                  attempts := 1, time := s.time }
      .next (s.setConv { s.conv with
        granted := none, power := .ready, idleTimer := idleExpiry s.time s.conv.idleDelay, arb := s.conv.arb.hand ended })
    else .next s
  | _, _ => .next s

/-- A sample before the last ends (R126): its value joins the running sum. The value is free (log 4). No row of the table
is this event; the idle step takes it when time reaches it. -/
def Converter.sampleEnds (c : Converter) (now : Time) : Bool :=
  match c.power, c.granted with
  | .converting, some g => decide (g.taken + 1 < g.samples ∧ now = g.endOf (g.taken + 1))
  | _, _ => false

def Converter.addSample (c : Converter) (v : Sample) : Converter :=
  { c with granted := c.granted.map fun g => { g with taken := g.taken + 1, sum := g.sum + v.toNat } }

/-- IDLE_TIMER_EXPIRY (R128), at its time, while READY: the converter becomes OFF. -/
def execIdleTimerExpiry (s : State) : Host.Outcome State Fault Refusal :=
  match s.conv.idleTimer with
  | none => .next s
  | some t =>
    if t = s.time ∧ s.conv.power = .ready then .next (s.setConv { s.conv with power := .off, idleTimer := none })
    else .next s

/-- The converter applies a valid idle delay (R129): READY restarts or cancels the timer, any other state leaves it. -/
def Converter.setDelay (c : Converter) (now : Time) (delay : Byte) : Converter :=
  { c with idleDelay := delay, idleTimer := if c.power = .ready then idleExpiry now delay else c.idleTimer }

/-- ANALOG_SET (R129): refused above 250, otherwise applied at once; the reply shows the state and the delay in force. -/
def execAnalogSet (s : State) : Host.Outcome State Fault Refusal :=
  match takeHead s.hand.converter .analogSet with
  | none => .next s
  | some (r, rest) =>
    let t := s.setHand { s.hand with converter := rest }
    let delay := readByte r.payload 0
    if 250 < delay.toNat then .next (t.reply r.ref .badArg [t.conv.power.code, t.conv.idleDelay])
    else .next ((t.setConv (t.conv.setDelay t.time delay)).reply r.ref .ok [t.conv.power.code, delay])

/-- Sweep, position, slot, input and samples of the granted request, or zeros (R131). -/
def grantedBytes : Option Conversion → List Byte
  | none => [0, 0, 0, 0, 0]
  | some c =>
    match c.entry.req.copy.body with
    | .analog d => [byteOf c.entry.req.sweep.val, byteOf c.entry.req.position.val, byteOf c.entry.req.slot.val,
                    byteOf d.input.val, byteOf d.samples]
    | .twoWire _ => [byteOf c.entry.req.sweep.val, byteOf c.entry.req.position.val, byteOf c.entry.req.slot.val, 0, 0]

/-- Whether the idle timer runs, and its expiry, 0 when stopped (R131, R153). -/
def timerBytes : Option Time → List Byte
  | none => 0 :: be32 0
  | some t => 1 :: be32 t

/-- The items of an ANALOG.GET reply (R131). -/
def Converter.items (c : Converter) : List Byte :=
  [c.power.code, c.idleDelay] ++ timerBytes c.idleTimer ++ [byteOf c.arb.pending.length] ++ grantedBytes c.granted

/-- ANALOG_GET (R131). -/
def execAnalogGet (s : State) : Host.Outcome State Fault Refusal :=
  match takeHead s.hand.converter .analogGet with
  | none => .next s
  | some (r, rest) => .next ((s.setHand { s.hand with converter := rest }).reply r.ref .ok s.conv.items)

end Sys2Proof.Machine
end

