-- ==== Sys2Proof/Config.lean ====
section
/-! DEFINITION. What one part fixes, and the free values: opaque constants with no body, so that no proof can see what
they are. -/

namespace Sys2Proof.Config

/-- The part revision of the part described in the publication (R187). -/
def revision : Byte := 1

/-- FREE VALUE (log 4). The value of an analog sample that no command carries: the voltage of an input is not the part's
to know. Applied to `State.free`, which grows with every use. -/
opaque sampleValue : Nat → Sample

/-- FREE VALUE (log 2). Which of the events that are due together the idle step takes first: the spec says that either may
be taken first (R150, R175). Applied to `State.free`. -/
opaque choice : Nat → Nat

/-- FREE VALUE (log 25). Whether the Watch Unit takes the copy of a completion as it is sent, so before the rest of the
action that takes the completion, or later: the spec allows both (R51, R134, R146). Applied to `State.free`. -/
opaque copyAtOnce : Nat → Bool

end Sys2Proof.Config
end

