-- ==== Sys2Proof/Machine/HostLink.lean ====
section
/-! DEFINITION. The Host Link (Chapter 10), the routing of requests and the device reset (Chapter 11): the commands
SEL_ASSERTION, EXCHANGE_END, NRST_ASSERTION and NRST_RELEASE. -/

namespace Sys2Proof.Machine

/-! ### The offer (R157, R158) -/

/-- The bytes of a queued frame as offered now: its KIND, SEQ and payload are its own, ACK and FLAGS the header's (R158). -/
def Link.compose (l : Link) (f : OutFrame) (more : Bool) : List Byte :=
  partFrame f.kind.code f.seq l.rack (flagsByte more l.busy l.crcNote) f.payload

/-- The bytes of an IDLE frame: no payload, SEQ T (R157). -/
def Link.composeIdle (l : Link) : List Byte := partFrame kindIdle l.t l.rack (flagsByte false l.busy l.crcNote) []

/-- The offer chosen and composed at the assertion of SEL (R157). -/
def Link.choose (l : Link) : Exchange :=
  match l.state with
  | .closed =>
    match l.queue.head? with
    | some f => { offer := l.compose f false, queued := false }
    | none => { offer := l.composeIdle, queued := false }
  | .opened =>
    match l.offerable l.cursor, l.queue[l.cursor]? with
    | true, some f => { offer := l.compose f l.more, queued := true }
    | _, _ => { offer := l.composeIdle, queued := false }

/-- The byte the part shifts at place `k` of an exchange: FF hex after the last byte of its offer (R156). -/
def Exchange.sdo (x : Exchange) (k : Nat) : Byte := x.offer.getD k 0xFF

/-- SEL_ASSERTION (R157): an exchange begins; composing the header clears the CRC-error note (R158). While NRST is asserted
no exchange is taken (R173). SEL that is already asserted cannot be asserted. -/
def execSelAssertion (s : State) : Host.Outcome State Fault Refusal :=
  let l := s.link
  if l.sel then .next s
  else if l.nrst then .next (s.setLink { l with sel := true })
  else .next (s.setLink { l with sel := true, exchange := some l.choose, crcNote := false })

/-! ### The end of an exchange (R159 to R163) -/

/-- The offer is settled (R159): complete when every byte of it was shifted; a queued frame is then marked sent and the
cursor advances. -/
def Link.settle (l : Link) (x : Exchange) (shifted : Nat) : Link :=
  let l1 := { l with exchange := none }
  if x.queued ∧ x.offer.length ≤ shifted then
    match l1.queue[l1.cursor]? with
    | some f => Link.refresh { l1 with queue := l1.queue.set l1.cursor { f with sent := true }, cursor := l1.cursor + 1 }
    | none => l1
  else l1

/-- The ACK of a valid frame (R161): a sent frame of that SEQ and every frame before it are retired. -/
def Link.acknowledge (l : Link) (ack : Byte) : Link :=
  match l.queue.findIdx? (fun f => f.sent && f.seq == ack) with
  | none => l
  | some k => Link.refresh { l with queue := l.queue.drop (k + 1), cursor := l.cursor - (k + 1) }

/-- The RESEND flag (R162): the cursor moves to the oldest frame. -/
def Link.resend (l : Link) (flag : Bool) : Link := if flag then Link.refresh { l with cursor := 0 } else l

/-! ### Routing (R174) and refusals of the link (R176) -/

/-- The request is appended to its owner's hand-off list (R174); the Watch Unit's stands in its inbox (R134). -/
def State.handOff (s : State) (r : Request) : State :=
  let h := s.hand
  match r.kind.owner with
  | .timeBase => s.setHand { h with timeBase := h.timeBase ++ [r] }
  | .probeTable => s.setHand { h with probeTable := h.probeTable ++ [r] }
  | .sweepEngine => s.setHand { h with sweepEngine := h.sweepEngine ++ [r] }
  | .resultStore => s.setHand { h with resultStore := h.resultStore ++ [r] }
  | .ports => s.setHand (h.setPorts (portOwnerOf r.payload) (h.ports (portOwnerOf r.payload) ++ [r]))
  | .converter => s.setHand { h with converter := h.converter ++ [r] }
  | .watchUnit => s.setInbox (s.inbox ++ [.request r])

/-- A device reset (R179, R173): every block returns to its reset values, and the link is CLOSED with a HELLO frame of the
reason. The pins are the outside world's; the command queue and the free-value index are the model's (log 22). -/
def State.deviceReset (s : State) (reason : Reason) (nrst : Bool) : State :=
  { State.reset with
    pending := s.pending
    free := s.free
    link := { Link.reset reason with sel := s.link.sel, nrst := nrst } }

/-- The link knows the request as its own (R163, R155): E advances and the request joins the accepted set. -/
def Link.accept (l : Link) (ref : ReqRef) : Link :=
  { l with e := l.e + 1, accepted := l.accepted ++ [ref], nextId := l.nextId + 1 }

/-- An accepted request: handed to its owner, refused by the link (R176), or a DEVICE.RESET (R172). -/
def State.accept (s : State) (f : HostFrame) : State :=
  let known := ReqKind.ofCode f.kind
  let linkKind := f.kind == kindOpen || f.kind == kindDeviceReset
  let ref : ReqRef :=
    { id := s.link.nextId, seq := f.seq, replyKind := if known.isSome || linkKind then replyKind f.kind else 0x80 }
  let t := s.setLink (s.link.accept ref)
  match known with
  | some k =>
    if f.payload.length = k.len then t.handOff { ref := ref, kind := k, payload := f.payload }
    else t.reply ref .badFrame []
  | none =>
    if f.kind = kindDeviceReset ∧ f.payload = [] then t.deviceReset .hostReset false
    else if linkKind then t.reply ref .badFrame []
    else t.reply ref .unknownKind [f.kind]

/-! ### OPEN and the link restart (R169, R170) -/

/-- The items of the OPEN reply: revision, the eleven capacities, reason, orphan count (R169, R187). -/
def openItems (reason : Reason) (orphans : Nat) : List Byte :=
  [Config.revision, 64, 8, 16, 3, 10, 120, 24, 16, 4, 8, 4, reason.code, byteOf orphans]

/-- The link after an OPEN of SEQ `seq`: E and T anew, the queue holding only the OPEN reply, OPEN (R169). -/
def Link.start (l : Link) (seq : Byte) (reason : Reason) (orphans : Nat) : Link :=
  Link.append { l with state := .opened, e := seq + 1, t := 0, queue := [], cursor := 0 }
    (.reply (replyKind kindOpen)) ([seq, Status.ok.code] ++ openItems reason orphans)

/-- The accepted requests that are no waiter's: they become orphans at a link restart (R170 steps 3 and 4). -/
def State.newOrphans (s : State) : List ReqRef :=
  s.link.accepted.filter (fun r => !holds (s.waiters.map Waiter.ref) r)

/-- A link restart (R170, R86, R147). -/
def State.restart (s : State) (seq : Byte) : State :=
  let moved := s.newOrphans
  { s with
    dropped := satAdd 255 s.dropped s.link.events
    waiters := []
    link := Link.start { s.link with accepted := [], orphans := s.link.orphans ++ moved } seq .restart moved.length }

/-! ### Taking the host's frame (R160 to R163, R168) -/

/-- A valid frame taken in OPEN that is no OPEN frame: its ACK, its RESEND flag, and, for a request, its SEQ against E. -/
def State.takeFrame (s : State) (f : HostFrame) : State :=
  let l := (s.link.acknowledge f.ack).resend f.resend
  let t := s.setLink l
  if f.kind = kindNull then t
  else if f.seq = l.e ∧ l.use < 8 then t.accept f
  else t

/-- The host's frame of an exchange: a discarded frame sets the CRC-error note (R160); in CLOSED only an OPEN frame is
attended to (R168, R169); an OPEN frame in OPEN is a link restart (R170). -/
def State.takeExchange (s : State) (sdi : List Byte) : State :=
  match readHostFrame sdi with
  | none => s.setLink { s.link with crcNote := true }
  | some f =>
    if f.kind = kindOpen ∧ f.payload = [] then
      match s.link.state with
      | .closed => s.setLink (s.link.start f.seq s.link.reason 0)
      | .opened => s.restart f.seq
    else
      match s.link.state with
      | .closed => s
      | .opened => s.takeFrame f

/-- EXCHANGE_END (R159): SEL is deasserted. The offer is settled, then the host's frame is taken. SEL that is not asserted
cannot be deasserted, and an assertion that began no exchange ends none (R173). -/
def execExchangeEnd (sdi : List Byte) (s : State) : Host.Outcome State Fault Refusal :=
  if s.link.sel then
    let t := s.setLink { s.link with sel := false }
    match t.link.exchange with
    | none => .next t
    | some x => .next ((t.setLink (t.link.settle x sdi.length)).takeExchange sdi)
  else .next s

/-! ### NRST (R173) -/

/-- NRST_ASSERTION: a device reset of reason POWER_ON that cuts off any exchange. -/
def execNrstAssertion (s : State) : Host.Outcome State Fault Refusal := .next (s.deviceReset .powerOn true)

/-- NRST_RELEASE: exchanges are taken again, from the next assertion of SEL. -/
def execNrstRelease (s : State) : Host.Outcome State Fault Refusal := .next (s.setLink { s.link with nrst := false })

end Sys2Proof.Machine
end

