-- ==== Sys2Proof/Machine/ResultStore.lean ====
section
/-! DEFINITION. The Result Store (Chapter 4): pages, the four instructions of the Sweep Engine, fetch replies, waiters, and
the commands RESULT_FETCH and WAIT_EXPIRY. -/

namespace Sys2Proof.Machine

/-! ### Pages (sections 4.1 to 4.4) -/

def Pages.published (g : Pages) : Page := if g.publishedB then g.b else g.a

def Pages.work (g : Pages) : Page := if g.publishedB then g.a else g.b

def Pages.setWork (g : Pages) (x : Page) : Pages := if g.publishedB then { g with a := x } else { g with b := x }

/-- The records of a prepared page: PENDING within the list, NONE beyond it (R47, R69). -/
def preparedRecords (list : List (Fin 64)) : Vector Record 16 :=
  Vector.ofFn fun k =>
    match list[k.val]? with
    | some slot => { slot := slot, status := .pending, attempts := 0, data := [], time := 0 }
    | none => Record.cleared

/-- The prepare instruction (R71). -/
def Pages.prepare (g : Pages) (pass : Word) (start : Time) (list : List (Fin 64)) : Pages :=
  { g.setWork { pass := pass, start := start, publish := 0, faults := 0, records := preparedRecords list } with
    workUsed := true }

/-- The write instruction (R72): status, attempts, data and completion time; the probe slot is kept (R69). -/
def Page.write (g : Page) (k : Fin 16) (c : Completion) : Page :=
  let r : Record := { g.records[k] with status := .ended c.status, attempts := c.attempts, data := c.data, time := c.time }
  { g with records := g.records.set k r }

def Pages.write (g : Pages) (k : Fin 16) (c : Completion) : Pages := g.setWork (g.work.write k c)

/-- The discard instruction (R73). -/
def Pages.discard (g : Pages) : Pages := { g with workUsed := false }

/-- The number of records whose status is neither DONE nor NONE (R63, R70). -/
def Page.faultCount (g : Page) : Nat :=
  g.records.toList.countP (fun r => decide (r.status ≠ .none ∧ r.status ≠ .ended .done))

/-- The publish instruction (R74), steps 1 and 2: the header is completed and the two pages exchange roles whole. -/
def Pages.publish (g : Pages) (now : Time) : Pages :=
  let h := g.setWork { g.work with publish := now, faults := g.work.faultCount }
  { h with publishedB := !g.publishedB, workUsed := false }

/-- Both pages are cleared (R68). That they keep their roles and that the work page becomes unused are the model's (DESIGN
CHOICE, log 13). -/
def Pages.clear (g : Pages) : Pages := { g with a := Page.cleared, b := Page.cleared, workUsed := false }

/-! ### Fetch replies (section 4.6, R186) -/

/-- A record in a fetch reply (Table 11-8). -/
def Record.bytes (r : Record) (position : Nat) : List Byte :=
  [byteOf position, byteOf r.slot.val, r.status.code, byteOf (16 * r.attempts + r.data.length)] ++ be32 r.time ++ r.data

/-- The records from `first`, at most `count`, that fit whole in `room` bytes; the first that does not fit ends the
reply (R78). -/
def packRecords (g : Page) : (first count room : Nat) → List (List Byte)
  | _, 0, _ => []
  | first, count + 1, room =>
    match g.records.toList[first]? with
    | none => []
    | some r =>
      if (r.bytes first).length ≤ room then
        r.bytes first :: packRecords g (first + 1) count (room - (r.bytes first).length)
      else []

/-- The fetch reply header after SEQ and status (Table 11-7). -/
def fetchHeader (sweep : Byte) (included : Nat) (pass : Word) (start : Time) : List Byte :=
  [sweep, byteOf included] ++ be32 pass ++ be32 start

/-- The items of an OK reply (R77, R78): 12 bytes of header leave 108 of 120. -/
def fetchItems (i : SweepNo) (g : Page) (first count : Nat) : List Byte :=
  let recs := packRecords g first count 108
  fetchHeader (byteOf i.val) recs.length g.pass g.start ++ recs.flatten

/-- The items of STALE, NO_PASS, TIMEOUT and WAITERS_FULL (R77). -/
def noRecords (i : SweepNo) (g : Page) : List Byte := fetchHeader (byteOf i.val) 0 g.pass g.start

/-! ### Waiters (sections 4.8 and 4.9) -/

/-- Every waiter that `sel` chooses is answered, in the order in which the waiters joined, and leaves the list. -/
def State.answerWaiters (s : State) (sel : Waiter → Bool) (status : Status) (items : Waiter → List Byte) : State :=
  { s with
    link := (s.waiters.filter sel).foldl (fun l w => l.reply w.ref (status.code :: items w)) s.link
    waiters := s.waiters.filter (fun w => !sel w) }

/-- The leave notice (R85): every waiter on the sweep is answered NO_PASS. -/
def State.leaveNotice (s : State) (i : SweepNo) : State :=
  s.answerWaiters (fun w => w.sweep == i) .noPass (fun _ => noRecords i (s.pagesOf i).published)

/-- The waiters that a publication satisfies are answered OK with the new page (R83). -/
def State.answerSatisfied (s : State) (i : SweepNo) : State :=
  let g := (s.pagesOf i).published
  s.answerWaiters (fun w => w.sweep == i && decide (w.passHeld < g.pass)) .ok (fun w => fetchItems i g w.first w.count)

/-! ### RESULT_FETCH (sections 4.5 and 4.7) -/

/-- NEWER (R81, R82); an orphaned fetch that would become a waiter is dropped and leaves the orphan set (R86, R171). -/
def State.fetchNewer (s : State) (ref : ReqRef) (f : Fetch) (pass : Word) (waitMs : Half) : State :=
  let g := (s.pagesOf f.sweep).published
  if pass < g.pass then s.reply ref .ok (fetchItems f.sweep g f.first f.count)
  else if (s.sweep f.sweep).state ≠ .armed ∧ (s.sweep f.sweep).state ≠ .running then
    s.reply ref .noPass (noRecords f.sweep g)
  else if 4 ≤ s.waiters.length then s.reply ref .waitersFull (noRecords f.sweep g)
  else if holds s.link.accepted ref then
    s.setWaiters (s.waiters ++ [{ ref := ref, sweep := f.sweep, passHeld := pass, first := f.first, count := f.count,
                                  deadline := s.time + msTime waitMs.toNat }])
  else s.setLink { s.link with orphans := dropRef s.link.orphans ref }

/-- A fetch is decided in the action in which it is taken (R76). -/
def State.fetch (s : State) (r : Request) : State :=
  match readFetch r.payload with
  | none => s.reply r.ref .badArg (fetchHeader (readByte r.payload 0) 0 0 0)
  | some f =>
    let g := (s.pagesOf f.sweep).published
    match f.mode with
    | .latest => s.reply r.ref .ok (fetchItems f.sweep g f.first f.count)
    | .exact n =>
      if g.pass = n then s.reply r.ref .ok (fetchItems f.sweep g f.first f.count)
      else s.reply r.ref .stale (noRecords f.sweep g)
    | .newer n w => s.fetchNewer r.ref f n w

/-- RESULT_FETCH: the Result Store takes the request at the head of its hand-off list. -/
def execResultFetch (s : State) : Host.Outcome State Fault Refusal :=
  match takeHead s.hand.resultStore .resultFetch with
  | none => .next s
  | some (r, rest) => .next ((s.setHand { s.hand with resultStore := rest }).fetch r)

/-- WAIT_EXPIRY (R84): waiter `k`, whose deadline the time base has reached, is answered TIMEOUT and leaves the list. -/
def execWaitExpiry (k : Nat) (s : State) : Host.Outcome State Fault Refusal :=
  match s.waiters[k]? with
  | none => .next s
  | some w =>
    if w.deadline = s.time then
      .next ((s.setWaiters (s.waiters.eraseIdx k)).reply w.ref .timeout (noRecords w.sweep (s.pagesOf w.sweep).published))
    else .next s

end Sys2Proof.Machine
end

