-- ==== Sys2Proof/Machine/SweepEngine.lean ====
section
/-! DEFINITION. The Sweep Engine (Chapter 2) with the start, abandonment and end of passes (sections 3.2, 3.5, 3.7): the
SWEEP requests and the command PERIOD_EXPIRY. -/

namespace Sys2Proof.Machine

/-- A sweep is active when it is ARMED, RUNNING or STOPPING (section 2.2). -/
def SweepState.active : SweepState → Bool
  | .empty | .idle => false
  | .armed | .running | .stopping => true

/-- The slots of a sweep's list; none when it is EMPTY (R19). -/
def Sweep.list (w : Sweep) : List (Fin 64) :=
  match w.defn with
  | none => []
  | some d => d.list

/-- The positions of a definition, in list order (R19). -/
def SweepDef.positions (d : SweepDef) : List (Fin 16) :=
  (List.finRange 16).filter (fun k => decide (k.val < d.list.length))

/-! ### Issue (R48, R16) -/

/-- A probe request for position `k` is handed to the arbiter of its definition copy. -/
def State.issue (s : State) (i : SweepNo) (d : SweepDef) (k : Fin 16) : State :=
  match d.list[k.val]? with
  | none => s
  | some slot =>
    match (s.slot slot).record with
    | none => s
    | some r =>
      let q : ProbeRequest := { sweep := i, position := k, pass := (s.sweep i).started, slot := slot, copy := r,
                                priority := d.priority }
      s.setArb r.resource { s.arb r.resource with issues := (s.arb r.resource).issues ++ [q] }

/-- Requests for several positions, in the order given. -/
def State.issueAll (s : State) (i : SweepNo) (d : SweepDef) (l : List (Fin 16)) : State :=
  l.foldl (fun s k => s.issue i d k) s

/-! ### The start of a pass (R47) and its abandonment (R59) -/

/-- Steps 1 to 5 of R47, which R59 repeats: the next pass number, the start time, RUNNING, the prepared work page, every
position PENDING. -/
def State.beginPass (s : State) (i : SweepNo) (d : SweepDef) : State :=
  let w := s.sweep i
  let n := w.started + 1
  let t := s.setSweep i { w with started := n, state := .running,
                                 run := some { start := s.time, positions := List.replicate d.list.length .pending } }
  t.setPages i ((t.pagesOf i).prepare n s.time d.list)

/-- A pass starts from ARMED (R47). -/
def State.startPass (s : State) (i : SweepNo) (d : SweepDef) : State :=
  (s.beginPass i d).issueAll i d d.positions

/-- Position states of the running pass; none outside RUNNING (R45). -/
def Sweep.positions (w : Sweep) : List PosState :=
  match w.run with
  | none => []
  | some r => r.positions

/-- A position is outstanding after a withdrawal when it is not COMPLETE and its request was not removed (R60). -/
def stillOut (old : List PosState) (removed : List (Fin 16)) (k : Fin 16) : Bool :=
  old[k.val]? != some .complete && !removed.contains k

/-- Table 3-3: a position that is still outstanding becomes DEFERRED, any other PENDING. A DEFERRED position whose old
request the withdrawal removed is PENDING with a new request (log 6). -/
def afterAbandon (old : List PosState) (removed : List (Fin 16)) (k : Fin 16) : PosState :=
  if stillOut old removed k then .deferred else .pending

/-- A trigger under RESTART abandons the running pass and starts a new one (R59). -/
def State.abandonPass (s : State) (i : SweepNo) (d : SweepDef) : State :=
  let old := (s.sweep i).positions
  let s1 := s.beginPass i d
  let removed := s1.withdrawn i
  let s2 := s1.withdraw i
  let s3 := s2.setSweep i { s2.sweep i with
    run := some { start := s.time, positions := d.positions.map (afterAbandon old removed) } }
  s3.issueAll i d (d.positions.filter (fun k => !stillOut old removed k))

/-! ### Triggers (section 2.6) -/

/-- What a trigger does (Table 11-4, fire outcome; `ignored` is none). -/
inductive FireOutcome where
  | ignored | started | restarted | missed
deriving DecidableEq, Repr

def FireOutcome.code : FireOutcome → Byte
  | .ignored => 0
  | .started => 1
  | .restarted => 2
  | .missed => 3

/-- The missed count increases by 1, saturating at 65535 (R33). -/
def State.countMissed (s : State) (i : SweepNo) : State :=
  s.setSweep i { s.sweep i with missed := satAdd 65535 (s.sweep i).missed 1 }

/-- R37: the period timer stops, and the leave notice answers every waiter on the sweep. -/
def State.leave (s : State) (i : SweepNo) : State :=
  (s.setSweep i { s.sweep i with timer := none, armExpiry := false }).leaveNotice i

/-- Pass numbers are exhausted (R42). -/
def Sweep.exhausted (w : Sweep) : Bool := w.started == 0xFFFFFFFF

/-- What a trigger that reaches sweep `i` will do (R31, R32, R42). -/
def State.triggerOutcome (s : State) (i : SweepNo) : FireOutcome :=
  match (s.sweep i).state, (s.sweep i).defn with
  | .armed, some _ => if (s.sweep i).exhausted then .missed else .started
  | .running, some d =>
    match d.overrun with
    | .skip => .missed
    | .restart => if (s.sweep i).exhausted then .missed else .restarted
  | _, _ => .ignored

/-- A trigger is taken by sweep `i` (R31, R32, R33, R42). -/
def State.trigger (s : State) (i : SweepNo) : State :=
  match s.triggerOutcome i, (s.sweep i).defn with
  | .started, some d => s.startPass i d
  | .restarted, some d => s.abandonPass i d
  | .missed, _ =>
    let t := s.countMissed i
    if (s.sweep i).state = .armed then (t.setSweep i { t.sweep i with state := .idle }).leave i else t
  | _, _ => s

/-! ### The period timer (R28, R152) -/

/-- The expiry is taken: the timer is set again for the previous expiry plus the period, and a period trigger is taken. -/
def State.periodExpires (s : State) (i : SweepNo) (expiry : Time) : State :=
  let w := s.sweep i
  let again : Option Time :=
    match w.defn with
    | some d =>
      match d.source with
      | .period period _ => some (expiry + msTime period.toNat)
      | .host | .chain _ => none
    | none => none
  (s.setSweep i { w with timer := again, armExpiry := false }).trigger i

/-- PERIOD_EXPIRY (R28), at its time (R150). -/
def execPeriodExpiry (i : SweepNo) (s : State) : Host.Outcome State Fault Refusal :=
  match (s.sweep i).timer with
  | none => .next s
  | some t => if t = s.time then .next (s.periodExpires i t) else .next s

/-- With a phase of 0 the first expiry is taken before anything else reaches the sweep (R27, log 9). -/
def State.takeArmExpiry (s : State) (i : SweepNo) : State :=
  match (s.sweep i).armExpiry, (s.sweep i).timer with
  | true, some t => s.periodExpires i t
  | _, _ => s

/-! ### Taking a SWEEP request -/

/-- The request of kind `k` at the head of the Sweep Engine's list, and the state in which its sweep takes it. -/
def State.takeSweep (s : State) (k : ReqKind) : Option (Request × State) :=
  match takeHead s.hand.sweepEngine k with
  | none => none
  | some (r, rest) =>
    let t := s.setHand { s.hand with sweepEngine := rest }
    match sweepOf r.payload with
    | none => some (r, t)
    | some i => some (r, t.takeArmExpiry i)

/-- The sweep number as given and the state of the sweep when the reply is produced: the items of most SWEEP replies. -/
def State.sweepItems (s : State) (i : SweepNo) : List Byte := [byteOf i.val, (s.sweep i).state.code]

/-! ### SWEEP_SET (R8, R22, R24) -/

/-- The lowest-numbered EMPTY slot that a list names (R8). -/
def State.lowestEmpty (s : State) (list : List (Fin 64)) : Option (Fin 64) :=
  (List.finRange 64).find? (fun k => list.contains k && (s.slot k).record.isNone)

/-- The counts move from an old list to a new one: the decreases first, then the increases (R8, R9). -/
def State.moveRefs (s : State) (old new : List (Fin 64)) : State :=
  { s with slots := Vector.ofFn fun k =>
      { s.slot k with refs := (s.slot k).refs - old.count k + new.count k } }

/-- The definition is made the sweep's (R24): IDLE, counters zeroed, both pages cleared. -/
def State.defineSweep (s : State) (i : SweepNo) (d : SweepDef) : State :=
  let t := s.moveRefs (s.sweep i).list d.list
  let u := t.setSweep i { Sweep.reset with state := .idle, defn := some d }
  u.setPages i (u.pagesOf i).clear

/-- A SWEEP.SET for sweep `i` (R22, grounds 2 to 5). -/
def State.sweepSet (s : State) (i : SweepNo) (r : Request) : State :=
  if (s.sweep i).state.active then s.reply r.ref .busy (s.sweepItems i ++ [0])
  else
    match readSweep r.payload with
    | .error e => s.reply r.ref e (s.sweepItems i ++ [0])
    | .ok d =>
      match s.lowestEmpty d.list with
      | some k => s.reply r.ref .noProbe (s.sweepItems i ++ [byteOf k.val])
      | none =>
        let t := s.defineSweep i d
        t.reply r.ref .ok (t.sweepItems i ++ [0])

/-- SWEEP_SET (R22): a sweep number above 7 is refused first. -/
def execSweepSet (s : State) : Host.Outcome State Fault Refusal :=
  match s.takeSweep .sweepSet with
  | none => .next s
  | some (r, t) =>
    match sweepOf r.payload with
    | none => .next (t.reply r.ref .badArg [readByte r.payload 0, 0, 0])
    | some i => .next (t.sweepSet i r)

/-! ### SWEEP_CLEAR (R25, R26) -/

/-- An IDLE sweep becomes EMPTY with a reference release; counters and pages stay (R26). -/
def State.clearSweep (s : State) (i : SweepNo) : State :=
  let t := s.moveRefs (s.sweep i).list []
  t.setSweep i { t.sweep i with state := .empty, defn := none }

/-- SWEEP_CLEAR (R25). -/
def execSweepClear (s : State) : Host.Outcome State Fault Refusal :=
  match s.takeSweep .sweepClear with
  | none => .next s
  | some (r, t) =>
    match sweepOf r.payload with
    | none => .next (t.reply r.ref .badArg [readByte r.payload 0, 0])
    | some i =>
      match (t.sweep i).state with
      | .empty => .next (t.reply r.ref .ok (t.sweepItems i))
      | .idle =>
        let u := t.clearSweep i
        .next (u.reply r.ref .ok (u.sweepItems i))
      | .armed | .running | .stopping => .next (t.reply r.ref .busy (t.sweepItems i))

/-! ### SWEEP_ARM (R27) -/

/-- The first expiry of a PERIOD sweep armed now (R27, R152). -/
def firstExpiry (now : Time) : Option SweepDef → Option Time
  | none => none
  | some d =>
    match d.source with
    | .period _ phase => some (now + msTime phase.toNat)
    | .host | .chain _ => none

/-- The phase is 0: the first expiry falls at the moment of the arm. -/
def phaseZero : Option SweepDef → Bool
  | none => false
  | some d =>
    match d.source with
    | .period _ phase => phase == 0
    | .host | .chain _ => false

/-- An IDLE sweep becomes ARMED (R27). -/
def State.armSweep (s : State) (i : SweepNo) : State :=
  let w := s.sweep i
  s.setSweep i { w with state := .armed, sinceArm := 0, missed := 0, timer := firstExpiry s.time w.defn,
                        armExpiry := phaseZero w.defn }

/-- SWEEP_ARM (R27). A refusal carries no items (R177, log 14). -/
def execSweepArm (s : State) : Host.Outcome State Fault Refusal :=
  match s.takeSweep .sweepArm with
  | none => .next s
  | some (r, t) =>
    match sweepOf r.payload with
    | none => .next (t.reply r.ref .badArg [0, 0])
    | some i =>
      match (t.sweep i).state with
      | .empty => .next (t.reply r.ref .noSweep [0, 0])
      | .idle =>
        let u := t.armSweep i
        .next (u.reply r.ref .ok (u.sweepItems i))
      | .armed | .running | .stopping => .next (t.reply r.ref .busy [0, 0])

/-! ### SWEEP_FIRE (R34) -/

/-- The pass number of an OK reply: that of the running pass, or 0 if the sweep is not RUNNING. -/
def Sweep.runningPass (w : Sweep) : Word := if w.state = .running then w.started else 0

/-- SWEEP_FIRE (R34). -/
def execSweepFire (s : State) : Host.Outcome State Fault Refusal :=
  match s.takeSweep .sweepFire with
  | none => .next s
  | some (r, t) =>
    match sweepOf r.payload with
    | none => .next (t.reply r.ref .badArg ([readByte r.payload 0, 0] ++ be32 0))
    | some i =>
      match (t.sweep i).state with
      | .empty => .next (t.reply r.ref .noSweep ([byteOf i.val, 0] ++ be32 0))
      | .idle | .stopping => .next (t.reply r.ref .notArmed ([byteOf i.val, 0] ++ be32 0))
      | .armed | .running =>
        let u := t.trigger i
        .next (u.reply r.ref .ok ([byteOf i.val, (t.triggerOutcome i).code] ++ be32 (u.sweep i).runningPass))

/-! ### SWEEP_STOP (R38 to R40) -/

/-- A running pass ends by a stop or a halt (R39, R55): the work page is discarded, the pending and settling requests are
withdrawn, and the sweep is STOPPING with the requests still outstanding as remnants, or IDLE without any; R37 applies. -/
def State.endPass (s : State) (i : SweepNo) (old : List PosState) (d : SweepDef) : State :=
  let s1 := s.setPages i (s.pagesOf i).discard
  let removed := s1.withdrawn i
  let s2 := s1.withdraw i
  let n := d.positions.countP (stillOut old removed)
  let s3 := s2.setSweep i { s2.sweep i with
    run := none, remnant := n, state := if n = 0 then .idle else .stopping }
  s3.leave i

/-- The STOP of a RUNNING sweep is answered when the sweep is IDLE (R39, R40). -/
def State.stopRunning (s : State) (i : SweepNo) (d : SweepDef) (ref : ReqRef) : State :=
  let t := s.endPass i (s.sweep i).positions d
  if (t.sweep i).state = .idle then t.reply ref .ok (t.sweepItems i)
  else t.setSweep i { t.sweep i with held := (t.sweep i).held ++ [ref] }

/-- SWEEP_STOP (R38, R39, R40). -/
def execSweepStop (s : State) : Host.Outcome State Fault Refusal :=
  match s.takeSweep .sweepStop with
  | none => .next s
  | some (r, t) =>
    match sweepOf r.payload with
    | none => .next (t.reply r.ref .badArg [readByte r.payload 0, 0])
    | some i =>
      match (t.sweep i).state, (t.sweep i).defn with
      | .empty, _ => .next (t.reply r.ref .noSweep (t.sweepItems i))
      | .idle, _ => .next (t.reply r.ref .ok (t.sweepItems i))
      | .armed, _ =>
        let u := (t.setSweep i { t.sweep i with state := .idle }).leave i
        .next (u.reply r.ref .ok (u.sweepItems i))
      | .running, some d => .next (t.stopRunning i d r.ref)
      | .running, none => .next (t.reply r.ref .noSweep (t.sweepItems i))
      | .stopping, _ => .next (t.setSweep i { t.sweep i with held := (t.sweep i).held ++ [r.ref] })

/-! ### SWEEP_GET (R44) -/

/-- The complete count: COMPLETE positions of the running pass (R44, R45). -/
def Sweep.completeCount (w : Sweep) : Nat := if w.state = .running then w.positions.count .complete else 0

/-- The items of an OK reply (R44, R185). -/
def sweepReport (i : SweepNo) (w : Sweep) : List Byte :=
  [byteOf i.val, w.state.code] ++ sweepBytes w.defn ++ be32 w.started ++ be32 w.sinceArm
    ++ be16 (BitVec.ofNat 16 w.missed) ++ be32 w.published ++ [byteOf w.completeCount, byteOf w.remnant]

/-- SWEEP_GET (R44). A BAD_ARG reply carries no items (R177, log 14). -/
def execSweepGet (s : State) : Host.Outcome State Fault Refusal :=
  match s.takeSweep .sweepGet with
  | none => .next s
  | some (r, t) =>
    match sweepOf r.payload with
    | none => .next (t.reply r.ref .badArg (List.replicate 47 0))
    | some i => .next (t.reply r.ref .ok (sweepReport i (t.sweep i)))

end Sys2Proof.Machine
end

