-- ==== Sys2Proof/Machine/WatchUnit.lean ====
section
/-! DEFINITION. The Watch Unit (Chapter 8): health, watch evaluation, WATCH and HEALTH events, and the commands
COMPLETION_COPY, WATCH_GET and WATCH_RESET. -/

namespace Sys2Proof.Machine

/-! ### The value and its evaluation (R138, R139) -/

/-- The unsigned number in the watched bytes (R138). -/
def WatchPart.raw (w : WatchPart) (data : List Byte) : Nat :=
  let a := readNat data w.offset
  let b := readNat data (w.offset + 1)
  if w.width = 1 then a
  else
    match w.order with
    | .big => 256 * a + b
    | .little => a + 256 * b

/-- The value, by signedness (R138). -/
def WatchPart.value (w : WatchPart) (data : List Byte) : Int :=
  let n := w.raw data
  let half : Nat := if w.width = 1 then 128 else 32768
  match w.sign with
  | .unsigned => n
  | .signed => if half ≤ n then (n : Int) - 2 * half else n

/-- Table 8-1, on exact integers: value, low limit, high limit, hysteresis. -/
def evaluate (before : WatchState) (v low high : Int) (hyst : Nat) : WatchState :=
  match before with
  | .unknown => if v < low then .low else if high < v then .high else .normal
  | .normal => if v < low then .low else if high < v then .high else .normal
  | .low => if high < v then .high else if low + hyst ≤ v ∧ v ≤ high then .normal else .low
  | .high => if v < low then .low else if v ≤ high - hyst ∧ low ≤ v then .normal else .high

/-- The watch state a value leads to under the copy's watch part. -/
def WatchPart.next (w : WatchPart) (before : WatchState) (v : Int) : WatchState :=
  evaluate before v w.low.toInt w.high.toInt w.hysteresis.toNat

/-! ### Events (R143, Table 11-9) -/

/-- The WATCH event: slot, old state, new state, value, sweep, pass of issue, completion time. -/
def watchItems (c : Completion) (old new : WatchState) (v : Int) : List Byte :=
  [byteOf c.req.slot.val, old.code, new.code] ++ be32 (BitVec.ofInt 32 v) ++ [byteOf c.req.sweep.val]
    ++ be32 c.req.pass ++ be32 c.time

/-- The HEALTH event: slot, change (0 RECOVERED, 1 FAILING), status, fault count, sweep, pass of issue, completion time. -/
def healthItems (c : Completion) (change : Byte) (faults : Nat) : List Byte :=
  [byteOf c.req.slot.val, change, c.status.code, byteOf faults, byteOf c.req.sweep.val] ++ be32 c.req.pass ++ be32 c.time

/-! ### Taking a copy (R135, R136, R140) -/

/-- A fault copy (R135). -/
def State.faultCopy (s : State) (c : Completion) : State :=
  let k := c.req.slot
  let w := s.watch k
  let limit := c.req.copy.faultLimit
  let n := if w.faults = limit then w.faults else w.faults + 1
  if w.health = .good ∧ n = limit then
    (s.setWatch k { watch := .unknown, health := .failing, faults := n }).offerEvent .health (healthItems c 1 n)
  else s.setWatch k { w with faults := n }

/-- Step 3 of R136: the value is evaluated; a change other than UNKNOWN to NORMAL originates a WATCH event (R140). -/
def State.evaluateCopy (s : State) (c : Completion) (w : WatchPart) : State :=
  let k := c.req.slot
  let v := w.value c.data
  let old := (s.watch k).watch
  let new := w.next old v
  let t := s.setWatch k { s.watch k with watch := new }
  if new = old ∨ (old = .unknown ∧ new = .normal) then t else t.offerEvent .watch (watchItems c old new v)

/-- A DONE copy (R136): the count becomes 0, a FAILING slot recovers with a HEALTH event, and the value is evaluated. -/
def State.doneCopy (s : State) (c : Completion) : State :=
  let k := c.req.slot
  let w := s.watch k
  let t := s.setWatch k { w with health := .good, faults := 0 }
  let u := if w.health = .failing then t.offerEvent .health (healthItems c 0 0) else t
  match c.req.copy.watch with
  | none => u
  | some part => u.evaluateCopy c part

/-- The Watch Unit takes a completion copy (R134). -/
def State.takeCopy (s : State) (c : Completion) : State := if c.status = .done then s.doneCopy c else s.faultCopy c

/-! ### WATCH_GET and WATCH_RESET (R141, R142) -/

/-- The slot that byte 0 names, if it is one. -/
def watchSlotOf (p : List Byte) : Option (Fin 64) := if h : readNat p 0 < 64 then some ⟨readNat p 0, h⟩ else none

/-- The items of a reply: slot, watch state, health, fault count, dropped-event count (R141). -/
def State.watchReport (s : State) (k : Fin 64) : List Byte :=
  let w := s.watch k
  [byteOf k.val, w.watch.code, w.health.code, byteOf w.faults, byteOf s.dropped]

/-- The slot becomes UNKNOWN, GOOD and 0 without an event (R133). -/
def State.resetWatch (s : State) (k : Fin 64) : State := s.setWatch k WatchSlot.reset

/-- A WATCH.GET is answered (R141); BAD_ARG carries the number as given, UNKNOWN, GOOD, 0 and the dropped-event count. -/
def State.watchGet (s : State) (r : Request) : State :=
  match watchSlotOf r.payload with
  | none => s.reply r.ref .badArg [readByte r.payload 0, 0, 0, 0, byteOf s.dropped]
  | some k => s.reply r.ref .ok (s.watchReport k)

/-- A WATCH.RESET is answered (R142). A BAD_ARG reply carries no items (R177, log 14). -/
def State.watchReset (s : State) (r : Request) : State :=
  match watchSlotOf r.payload with
  | none => s.reply r.ref .badArg [0, 0, 0, 0, 0]
  | some k =>
    let t := s.resetWatch k
    t.reply r.ref .ok (t.watchReport k)

/-! ### The inbox (R134) -/

/-- The Watch Unit takes one of the things that have reached it. -/
def State.takeItem (s : State) (x : WatchItem) : State :=
  match x with
  | .copy c => s.takeCopy c
  | .request r =>
    match r.kind with
    | .watchGet => s.watchGet r
    | .watchReset => s.watchReset r
    | _ => s

/-- Everything that has reached the Watch Unit is taken, in order (R134, log 7). -/
def State.takeInbox (s : State) : State := s.inbox.foldl State.takeItem (s.setInbox [])

/-- A completion copy is sent to the Watch Unit (R51): it joins what has reached the unit. With `atOnce` the Watch Unit takes
it as it is sent, after what reached the unit before it (R134); without, it waits (DESIGN CHOICE, log 25). -/
def State.sendCopy (s : State) (c : Completion) (atOnce : Bool) : State :=
  let t := s.setInbox (s.inbox ++ [.copy c])
  if atOnce then t.takeInbox else t

/-- COMPLETION_COPY (R134): the first thing that has reached the Watch Unit is a copy, and is taken. -/
def execCompletionCopy (s : State) : Host.Outcome State Fault Refusal :=
  match s.inbox with
  | .copy c :: rest => .next ((s.setInbox rest).takeCopy c)
  | _ => .next s

/-- The request of kind `k` that the Watch Unit is to take next, and the state without it. -/
def State.takeWatch (s : State) (k : ReqKind) : Option (Request × State) :=
  match s.inbox with
  | .request r :: rest => if r.kind = k then some (r, s.setInbox rest) else none
  | _ => none

/-- WATCH_GET (R141). -/
def execWatchGet (s : State) : Host.Outcome State Fault Refusal :=
  match s.takeWatch .watchGet with
  | none => .next s
  | some (r, t) => .next (t.watchGet r)

/-- WATCH_RESET (R142). -/
def execWatchReset (s : State) : Host.Outcome State Fault Refusal :=
  match s.takeWatch .watchReset with
  | none => .next s
  | some (r, t) => .next (t.watchReset r)

end Sys2Proof.Machine
end

