-- ==== Sys2Proof/Machine/PassExecution.lean ====
section
/-! DEFINITION. Pass execution (Chapter 3): the handling of completions, halts, publication with its chain triggers, and
the command COMPLETION. -/

namespace Sys2Proof.Machine

/-! ### Publication (section 3.6) -/

/-- The PASS event (R65): sweep, pass, pass start, publish time, fault count, published since arm, missed (Table 11-9). -/
def passItems (i : SweepNo) (g : Page) (w : Sweep) : List Byte :=
  byteOf i.val :: (be32 g.pass ++ be32 g.start ++ be32 g.publish ++ [byteOf g.faults] ++ be32 w.sinceArm
    ++ be16 (BitVec.ofNat 16 w.missed))

/-- A PASS event is offered with notify ON (R64 step 2). -/
def State.notifyPass (s : State) (i : SweepNo) (d : SweepDef) : State :=
  if d.notify then s.offerEvent .pass (passItems i (s.pagesOf i).published (s.sweep i)) else s

/-- The pass limit is reached: not 0, and published since arm equals it (R36). -/
def limitReached (d : SweepDef) (sinceArm : Word) : Bool := decide (d.passLimit ≠ 0 ∧ sinceArm = d.passLimit.setWidth 32)

/-- The next state after a publication (R36, R64 step 3). -/
def State.afterPublication (s : State) (i : SweepNo) (d : SweepDef) : State :=
  if limitReached d (s.sweep i).sinceArm then (s.setSweep i { s.sweep i with state := .idle }).leave i
  else s.setSweep i { s.sweep i with state := .armed }

/-- Sweep `j` chains to sweep `i` (R29). -/
def State.chainsTo (s : State) (i j : SweepNo) : Bool :=
  match (s.sweep j).defn with
  | none => false
  | some d => d.source == .chain i

/-- One chain trigger is taken at each sweep chained to `i`, in ascending order (R66). -/
def State.chainTriggers (s : State) (i : SweepNo) : State :=
  ((List.finRange 8).filter (fun j => s.chainsTo i j)).foldl (fun t j => t.trigger j) s

/-- The page is published and the counters are updated (R63, R42). The running pass ends. -/
def State.publishPage (s : State) (i : SweepNo) : State :=
  let w := s.sweep i
  let t := s.setPages i ((s.pagesOf i).publish s.time)
  t.setSweep i { w with sinceArm := w.sinceArm + 1, published := w.started, run := none }

/-- Publication, in the order of R64: page and counters, satisfied waiters, PASS event, next state, chain triggers. -/
def State.publish (s : State) (i : SweepNo) (d : SweepDef) : State :=
  ((((s.publishPage i).answerSatisfied i).notifyPass i d).afterPublication i d).chainTriggers i

/-! ### Handling of a completion (section 3.3) -/

/-- The position states with position `k` replaced. -/
def State.setPosition (s : State) (i : SweepNo) (k : Fin 16) (p : PosState) : State :=
  let w := s.sweep i
  s.setSweep i { w with run := w.run.map fun r => { r with positions := r.positions.set k.val p } }

/-- Every position of the running pass is COMPLETE (R53). -/
def Sweep.allComplete (w : Sweep) : Bool := w.positions.all (· == .complete)

/-- The completion is written and the position becomes COMPLETE (R50); a full page is published (R53). -/
def State.writeCompletion (s : State) (i : SweepNo) (d : SweepDef) (c : Completion) : State :=
  let t := s.setPages i ((s.pagesOf i).write c.req.position c)
  let u := t.setPosition i c.req.position .complete
  if (u.sweep i).allComplete then u.publish i d else u

/-- The HALT event (R56): sweep, pass, position, slot, fault status (Table 11-9). -/
def haltItems (i : SweepNo) (pass : Word) (c : Completion) : List Byte :=
  byteOf i.val :: (be32 pass ++ [byteOf c.req.position.val, byteOf c.req.slot.val, c.status.code])

/-- The first fault completion for a PENDING position under HALT (R55). Its own request has ended and is no remnant. -/
def State.haltPass (s : State) (i : SweepNo) (d : SweepDef) (c : Completion) : State :=
  let old := (s.sweep i).positions.set c.req.position.val .complete
  (s.endPass i old d).offerEvent .halt (haltItems i (s.sweep i).started c)

/-- A completion for a DEFERRED position (R52): discarded, and a new request is issued for the running pass. -/
def State.reissueDeferred (s : State) (i : SweepNo) (d : SweepDef) (k : Fin 16) : State :=
  (s.setPosition i k .pending).issue i d k

/-- The held STOP replies are produced, in the order the STOPs were taken, each OK with IDLE (R40). -/
def State.releaseHeld (s : State) (i : SweepNo) : State :=
  let w := s.sweep i
  w.held.foldl (fun t ref => t.reply ref .ok [byteOf i.val, SweepState.idle.code]) (s.setSweep i { w with held := [] })

/-- A completion in STOPPING (R40): the remnant count decreases; at 0 the sweep is IDLE and the held STOPs are answered. -/
def State.remnantEnds (s : State) (i : SweepNo) : State :=
  let w := s.sweep i
  let n := w.remnant - 1
  if n = 0 then (s.setSweep i { w with remnant := 0, state := .idle }).releaseHeld i
  else s.setSweep i { w with remnant := n }

/-- A completion is handled by the sweep's state and the position's state (Table 3-2). -/
def State.handleCompletion (s : State) (c : Completion) : State :=
  let i := c.req.sweep
  match (s.sweep i).state, (s.sweep i).defn with
  | .stopping, _ => s.remnantEnds i
  | .running, some d =>
    match (s.sweep i).positions[c.req.position.val]? with
    | some .pending =>
      if c.status ≠ .done ∧ d.faultPolicy = .halt then s.haltPass i d c else s.writeCompletion i d c
    | some .deferred => s.reissueDeferred i d c.req.position
    | _ => s
  | _, _ => s

/-- A completion is taken: its copy is sent to the Watch Unit before anything else is done with it (R51). -/
def State.takeCompletion (s : State) (c : Completion) (atOnce : Bool) : State := (s.sendCopy c atOnce).handleCompletion c

/-- COMPLETION (R49): the Sweep Engine takes the first completion handed to it by the arbiter of `r`. Whether the Watch Unit
takes its copy as it is sent, or later, is free (R51, R134, R146, log 25). -/
def execCompletion (r : Resource) (s : State) : Host.Outcome State Fault Refusal :=
  match (s.arb r).done with
  | [] => .next s
  | c :: rest =>
    .next ({ s.setArb r { s.arb r with done := rest } with free := s.free + 1 }.takeCompletion c (Config.copyAtOnce s.free))

end Sys2Proof.Machine
end

