-- ==== Sys2Proof/Machine/ProbeTable.lean ====
section
/-! DEFINITION. The Probe Table (Chapter 1): the commands PROBE_SET, PROBE_CLEAR and PROBE_GET. -/

namespace Sys2Proof.Machine

/-- The request of kind `k` at the head of the Probe Table's list, and the state without it. -/
def State.takeProbe (s : State) (k : ReqKind) : Option (Request × State) :=
  match takeHead s.hand.probeTable k with
  | none => none
  | some (r, rest) => some (r, s.setHand { s.hand with probeTable := rest })

/-- The slot is in use: an active sweep names it (section 1.5). -/
def State.inUse (s : State) (k : Fin 64) : Bool :=
  (List.finRange 8).any (fun i => (s.sweep i).state.active && (s.sweep i).list.contains k)

/-- The items of a PROBE.SET or PROBE.CLEAR reply for a slot: its number and its count (R12). -/
def State.slotItems (s : State) (k : Fin 64) : List Byte := [byteOf k.val, byteOf (s.slot k).refs]

/-- The slot's record is replaced, and the Watch Unit, which first takes what has reached it (R134, log 7), sets the slot
to UNKNOWN, GOOD and 0 (R11, R14). The reference count is left (R7). -/
def State.storeRecord (s : State) (k : Fin 64) (r : Option ProbeRecord) : State :=
  let t := s.takeInbox
  (t.setSlot k { t.slot k with record := r }).resetWatch k

/-- The items of a refusal: slot number as given, and its count, 0 above 63 (R12). -/
def State.probeRefusal (s : State) (p : List Byte) : List Byte :=
  match probeSlotOf p with
  | none => [readByte p 0, 0]
  | some k => s.slotItems k

/-- PROBE_SET (R10, R11): BAD_ARG for an invalid definition, IN_USE for a slot in use, or stored. -/
def execProbeSet (s : State) : Host.Outcome State Fault Refusal :=
  match s.takeProbe .probeSet with
  | none => .next s
  | some (r, t) =>
    match probeSlotOf r.payload, readProbe r.payload with
    | some k, some rec =>
      if t.inUse k then .next (t.reply r.ref .inUse (t.slotItems k))
      else
        let u := t.storeRecord k (some rec)
        .next (u.reply r.ref .ok (u.slotItems k))
    | _, _ => .next (t.reply r.ref .badArg (t.probeRefusal r.payload))

/-- PROBE_CLEAR (R13, R14). -/
def execProbeClear (s : State) : Host.Outcome State Fault Refusal :=
  match s.takeProbe .probeClear with
  | none => .next s
  | some (r, t) =>
    match probeSlotOf r.payload with
    | none => .next (t.reply r.ref .badArg [readByte r.payload 0, 0])
    | some k =>
      if 0 < (t.slot k).refs then .next (t.reply r.ref .inUse (t.slotItems k))
      else if (t.slot k).record.isNone then .next (t.reply r.ref .ok (t.slotItems k))
      else
        let u := t.storeRecord k none
        .next (u.reply r.ref .ok (u.slotItems k))

/-- PROBE_GET (R15). A BAD_ARG reply carries no items (R177, log 14). -/
def execProbeGet (s : State) : Host.Outcome State Fault Refusal :=
  match s.takeProbe .probeGet with
  | none => .next s
  | some (r, t) =>
    match probeSlotOf r.payload with
    | none => .next (t.reply r.ref .badArg (List.replicate 37 0))
    | some k =>
      .next (t.reply r.ref .ok
        ([flagByte (t.slot k).record.isSome, byteOf (t.slot k).refs] ++ probeBytes (byteOf k.val) (t.slot k).record))

end Sys2Proof.Machine
end

