-- ==== Sys2Proof/Machine/TimeBase.lean ====
section
/-! DEFINITION. The Time Base (Chapter 9): the command TIME_GET. The count itself is in Machine/Clock.lean. -/

namespace Sys2Proof.Machine

/-- TIME_GET (R148): OK with the value of the time base when the request is taken. -/
def execTimeGet (s : State) : Host.Outcome State Fault Refusal :=
  match takeHead s.hand.timeBase .timeGet with
  | none => .next s
  | some (r, rest) => .next ((s.setHand { s.hand with timeBase := rest }).reply r.ref .ok (be32 s.time))

end Sys2Proof.Machine
end

