-- ==== Sys2Proof/Machine/Dispatch.lean ====
section
/-! DEFINITION. The meaning of every command, one arm each. -/

namespace Sys2Proof.Machine

/-- The effect of a command on everything but the queue. -/
def exec (i : Instr) (s : State) : Host.Outcome State Fault Refusal :=
  match i with
  | .selAssertion => Sys2Proof.Machine.execSelAssertion s
  | .exchangeEnd sdi => Sys2Proof.Machine.execExchangeEnd sdi s
  | .nrstAssertion => Sys2Proof.Machine.execNrstAssertion s
  | .nrstRelease => Sys2Proof.Machine.execNrstRelease s
  | .timeGet => Sys2Proof.Machine.execTimeGet s
  | .probeSet => Sys2Proof.Machine.execProbeSet s
  | .probeClear => Sys2Proof.Machine.execProbeClear s
  | .probeGet => Sys2Proof.Machine.execProbeGet s
  | .sweepSet => Sys2Proof.Machine.execSweepSet s
  | .sweepClear => Sys2Proof.Machine.execSweepClear s
  | .sweepArm => Sys2Proof.Machine.execSweepArm s
  | .sweepFire => Sys2Proof.Machine.execSweepFire s
  | .sweepStop => Sys2Proof.Machine.execSweepStop s
  | .sweepGet => Sys2Proof.Machine.execSweepGet s
  | .resultFetch => Sys2Proof.Machine.execResultFetch s
  | .portSet o => Sys2Proof.Machine.execPortSet o s
  | .portGet o => Sys2Proof.Machine.execPortGet o s
  | .portClear o => Sys2Proof.Machine.execPortClear o s
  | .portXfer o => Sys2Proof.Machine.execPortXfer o s
  | .hostEntryArrival p => Sys2Proof.Machine.execHostEntryArrival p s
  | .analogSet => Sys2Proof.Machine.execAnalogSet s
  | .analogGet => Sys2Proof.Machine.execAnalogGet s
  | .watchGet => Sys2Proof.Machine.execWatchGet s
  | .watchReset => Sys2Proof.Machine.execWatchReset s
  | .periodExpiry n => Sys2Proof.Machine.execPeriodExpiry n s
  | .settleExpiry p k => Sys2Proof.Machine.execSettleExpiry p k s
  | .waitExpiry k => Sys2Proof.Machine.execWaitExpiry k s
  | .stretchTimerExpiry p => Sys2Proof.Machine.execStretchTimerExpiry p s
  | .idleTimerExpiry => Sys2Proof.Machine.execIdleTimerExpiry s
  | .arbiterTakesIssue r => Sys2Proof.Machine.execArbiterTakesIssue r s
  | .grant r => Sys2Proof.Machine.execGrant r s
  | .endOfPreludePhase p => Sys2Proof.Machine.execEndOfPreludePhase p s
  | .readPhaseEnd p data => Sys2Proof.Machine.execReadPhaseEnd p data s
  | .addrNak p k => Sys2Proof.Machine.execAddrNak p k s
  | .dataNak p k => Sys2Proof.Machine.execDataNak p k s
  | .contention p => Sys2Proof.Machine.execContention p s
  | .directTransferEnd p data => Sys2Proof.Machine.execDirectTransferEnd p data s
  | .clearEnd p pulses linesHigh => Sys2Proof.Machine.execClearEnd p pulses linesHigh s
  | .endOfWake => Sys2Proof.Machine.execEndOfWake s
  | .endOfConversion v => Sys2Proof.Machine.execEndOfConversion v s
  | .completion r => Sys2Proof.Machine.execCompletion r s
  | .completionCopy => Sys2Proof.Machine.execCompletionCopy s
  | .stretching p pulses => Sys2Proof.Machine.execStretching p pulses s
  | .sclRises p => Sys2Proof.Machine.execSclRises p s

end Sys2Proof.Machine
end

