-- ==== Sys2Proof/Machine/Clock.lean ====
section
/-! DEFINITION. What the part does when no command waits (log 2): it takes one due event of its own, or one microsecond
passes. Time never passes over an event whose time has come (R150), an issue not yet taken, or a due grant (R46, R128). -/

namespace Sys2Proof.Machine

/-! ### Events that time does not pass over (Table 9-2, R89, R91, R125, R127) -/

/-- The places of a list whose members satisfy `f`. -/
def placesWhere {α : Type} (l : List α) (f : α → Bool) : List Nat :=
  (List.range l.length).filter (fun k => (l[k]?.map f).getD false)

/-- Expiries of port `p`: its stretch timer, while an entry is granted, and its settle timers. -/
def State.duePort (s : State) (p : PortNo) : List Instr :=
  (if (s.port p).stretch = some s.time ∧ (s.port p).granted.isSome then [Instr.stretchTimerExpiry p] else [])
    ++ (placesWhere (s.port p).settling (fun m => m.expiry == s.time)).map (Instr.settleExpiry p)

/-- What is due at the converter: its idle timer, the end of its wake, the end of its conversion (last sample free). -/
def State.dueConverter (s : State) : List Instr :=
  (if s.conv.idleTimer = some s.time ∧ s.conv.power = .ready then [Instr.idleTimerExpiry] else [])
    ++ match s.conv.power, s.conv.granted with
      | .waking, some c => if s.time = c.since + wakeTime then [Instr.endOfWake] else []
      | .converting, some c =>
        if c.taken + 1 = c.samples ∧ s.time = c.endOf c.samples then
          [Instr.endOfConversion (Config.sampleValue s.free)]
        else []
      | _, _ => []

/-- A grant is due at the arbiter (R91). -/
def State.grantDue (s : State) : Resource → Bool
  | .tw p => (s.port p).granted.isNone && (s.port p).state != .blocked && decide (0 < (s.port p).pendingCount)
  | .analog => s.conv.granted.isNone && decide (0 < s.conv.arb.pending.length)

/-- What an arbiter does before time passes: it takes the requests issued to it, which are pending from their issue (R46),
and its due grant, so that the converter never powers down between probes that wait for it (R92, R128, log 2). -/
def State.dueAt (s : State) (r : Resource) : List Instr :=
  (if (s.arb r).issues.isEmpty then [] else [Instr.arbiterTakesIssue r]) ++ (if s.grantDue r then [Instr.grant r] else [])

/-- Every event that must be taken before time passes. -/
def State.dueNow (s : State) : List Instr :=
  ((List.finRange 8).filter (fun i => (s.sweep i).timer == some s.time)).map Instr.periodExpiry
    ++ (List.finRange 3).flatMap s.duePort
    ++ (placesWhere s.waiters (fun w => w.deadline == s.time)).map Instr.waitExpiry
    ++ s.dueConverter ++ (List.finRange 3).flatMap (fun p => s.dueAt (.tw p)) ++ s.dueAt .analog

/-! ### Work that waits for its owner (R49, R90, R134, R175) -/

/-- The command by which an owner takes the head of its hand-off list. -/
def takeCommand (o : PortOwner) : ReqKind → Instr
  | .timeGet => .timeGet
  | .probeSet => .probeSet
  | .probeClear => .probeClear
  | .probeGet => .probeGet
  | .sweepSet => .sweepSet
  | .sweepClear => .sweepClear
  | .sweepArm => .sweepArm
  | .sweepFire => .sweepFire
  | .sweepStop => .sweepStop
  | .sweepGet => .sweepGet
  | .resultFetch => .resultFetch
  | .portSet => .portSet o
  | .portGet => .portGet o
  | .portClear => .portClear o
  | .portXfer => .portXfer o
  | .analogSet => .analogSet
  | .analogGet => .analogGet
  | .watchGet => .watchGet
  | .watchReset => .watchReset

/-- The head of a hand-off list as a command. -/
def headCommand (o : PortOwner) (l : List Request) : List Instr :=
  match l with
  | [] => []
  | r :: _ => [takeCommand o r.kind]

/-- The first thing that has reached the Watch Unit as a command. -/
def inboxCommand (l : List WatchItem) : List Instr :=
  match l with
  | [] => []
  | .copy _ :: _ => [.completionCopy]
  | .request r :: _ => [takeCommand .block r.kind]

/-- The first completion of an arbiter, for the Sweep Engine, which it may take. -/
def State.waitingAt (s : State) (r : Resource) : List Instr :=
  if (s.arb r).done.isEmpty then [] else [.completion r]

/-- Everything that waits for its owner. -/
def State.waiting (s : State) : List Instr :=
  headCommand .block s.hand.timeBase ++ headCommand .block s.hand.probeTable ++ headCommand .block s.hand.sweepEngine
    ++ headCommand .block s.hand.resultStore ++ headCommand .block s.hand.converter
    ++ headCommand .block s.hand.portsBlock
    ++ (List.finRange 3).flatMap (fun p => headCommand (.tw p) (s.hand.ports (.tw p)))
    ++ inboxCommand s.inbox
    ++ (List.finRange 3).flatMap (fun p => if (s.port p).arrivals.isEmpty then [] else [Instr.hostEntryArrival p])
    ++ (List.finRange 3).flatMap (fun p => s.waitingAt (.tw p)) ++ s.waitingAt .analog

/-! ### The idle step -/

/-- One microsecond passes (R148); a sample before the last that ends then joins the running sum (R126). -/
def State.advance (s : State) : State :=
  let t := { s with time := s.time + 1 }
  if t.conv.sampleEnds t.time then
    { t with conv := t.conv.addSample (Config.sampleValue s.free), free := s.free + 1 }
  else t

/-- What the idle step may do: an event (`some`), or let time pass (`none`), which it may not while an event is due. -/
def State.choices (s : State) : List (Option Instr) :=
  (if s.dueNow.isEmpty then [none] else []) ++ (s.dueNow ++ s.waiting).map some

/-- The choice among several is free. -/
def State.choose (s : State) : Option Instr :=
  match s.choices with
  | [] => none
  | [c] => c
  | c :: rest => ((c :: rest)[Config.choice s.free % (rest.length + 1)]?).getD c

/-- The step on an empty queue. -/
def idle (s : State) : Host.Outcome State Fault Refusal :=
  match s.choose with
  | none => .next s.advance
  | some c => exec c { s with free := s.free + 1 }

end Sys2Proof.Machine
end

