-- ==== Sys2Proof/Safety.lean ====
section
/-! DEFINITION. The laws the spec says the blocks keep, as predicates on State: the terms in which the invariants are
stated. A safe run is one whose every state satisfies them. -/

namespace Sys2Proof.Machine

/-! ### Host Link (R161, R164, R166, R167) -/

/-- The HELLO frame. -/
def OutFrame.isHello (f : OutFrame) : Bool := f.kind == .hello

/-- The OPEN reply (R169, R187): SEQ, OK, revision, the eleven capacities, reason, orphan count. -/
def OutFrame.openReply (seq reason orphans : Byte) : OutFrame :=
  { kind := .reply 0x81, seq := 0,
    payload := [seq, 0, 1, 64, 8, 16, 3, 10, 120, 24, 16, 4, 8, 4, reason, orphans], sent := false }

/-- The frame at place `k` bears the sent mark. -/
def Link.sentAt (l : Link) (k : Nat) : Bool := (l.queue[k]?.map OutFrame.sent).getD false

/-- What the Host Link keeps. `consecutive` is R161's "the queue always holds consecutive sequences": they end at T − 1. -/
structure LinkLaw (l : Link) : Prop where
  /-- R164: the use never exceeds 8. -/
  budget : l.use ≤ 8
  /-- R166: at most 16 event frames. -/
  eventRoom : l.events ≤ 16
  /-- R166, R168: no HELLO frame in OPEN, at most one in CLOSED. -/
  hello : l.queue.countP OutFrame.isHello ≤ (match l.state with | .closed => 1 | .opened => 0)
  /-- R168: nothing is accepted in CLOSED. -/
  closedIdle : l.state = .closed → l.accepted = [] ∧ l.orphans = []
  /-- R166: sent frames are the oldest, and stand below place 4. -/
  sentOldest : ∀ k, l.sentAt k = true → k < 4 ∧ ∀ j, j < k → l.sentAt j = true
  /-- R166: the cursor reaches a place only by passing every frame before it. -/
  passed : ∀ k, k < l.cursor → l.sentAt k = true
  consecutive : l.state = .opened → ∀ k f, l.queue[k]? = some f → f.seq = l.t - BitVec.ofNat 8 (l.queue.length - k)
  /-- R157: an offer of a queued frame is that at the cursor, in OPEN. -/
  offered : ∀ x, l.exchange = some x → x.queued = true → l.state = .opened ∧ l.offerable l.cursor = true
  /-- R167. -/
  attention : l.attn = l.attnDue

/-- The state in which the host's frame of an exchange is taken: SEL is deasserted and the offer is settled (R159). -/
def State.offerSettled (s : State) (x : Exchange) (sdi : List Byte) : State :=
  s.setLink (Link.settle { s.link with sel := false } x sdi.length)

/-- The link after the ACK and the RESEND flag of a valid frame (R161, R162). -/
def Link.heard (l : Link) (f : HostFrame) : Link := (l.acknowledge f.ack).resend f.resend

/-- An OPEN frame: of kind OPEN with LEN 0 (section 10.6). -/
def HostFrame.isOpen (f : HostFrame) : Prop := f.kind = kindOpen ∧ f.payload = []

/-! ### Probe Table and Sweep Engine (R7, R19, R45, R37, R40) -/

/-- The number of sweeps whose list names the slot. -/
def State.nameCount (s : State) (k : Fin 64) : Nat := (List.finRange 8).countP (fun i => (s.sweep i).list.contains k)

/-- R7: the law of the Probe Table. -/
structure ReferenceLaw (s : State) : Prop where
  counted : ∀ k, (s.slot k).refs = s.nameCount k
  defined : ∀ i k, k ∈ (s.sweep i).list → (s.slot k).record.isSome = true
  distinct : ∀ i, (s.sweep i).list.Nodup
  empty : ∀ i, (s.sweep i).state = .empty ↔ (s.sweep i).defn = none

/-- A definition whose trigger source is PERIOD. -/
def isPeriodic : Option SweepDef → Bool
  | none => false
  | some d =>
    match d.source with
    | .period _ _ => true
    | .host | .chain _ => false

/-- A sweep that is ARMED or RUNNING. -/
def SweepState.triggerable : SweepState → Bool
  | .armed | .running => true
  | .empty | .idle | .stopping => false

/-- What holds of one sweep context. -/
structure SweepLaw (w : Sweep) : Prop where
  /-- Section 2.2: EMPTY is the state without a definition. -/
  empty : w.state = .empty ↔ w.defn = none
  /-- Table 2-1. -/
  range : ∀ d, w.defn = some d → d.inRange = true
  /-- R45: a running pass exists only while the sweep is RUNNING. -/
  running : w.state = .running ↔ w.run.isSome = true
  /-- R19: one position for each place of the list. -/
  positions : ∀ d r, w.defn = some d → w.run = some r → r.positions.length = d.list.length
  /-- R28, R37: the period timer runs exactly in ARMED and RUNNING of a PERIOD sweep. -/
  timer : w.timer.isSome = (isPeriodic w.defn && w.state.triggerable)
  /-- R39, R40: remnants only in STOPPING, and always there. -/
  remnant : w.state = .stopping ↔ 0 < w.remnant
  /-- R40: held replies only in STOPPING. -/
  held : w.held ≠ [] → w.state = .stopping
  /-- R33: the missed count saturates at 65535. -/
  missed : w.missed ≤ 65535

/-- The requests of one arbiter that are issued, pending or completed and not yet taken, for a position of a sweep. -/
def Arbiter.held (a : Arbiter) (i : SweepNo) (k : Fin 16) : Nat :=
  let mine (q : ProbeRequest) : Bool := q.sweep == i && q.position == k
  a.issues.countP mine + a.pending.countP (fun e => mine e.req) + a.done.countP (fun c => mine c.req)

/-- The entry is a request for that position of that sweep. -/
def ProbeEntry.isFor (e : ProbeEntry) (i : SweepNo) (k : Fin 16) : Bool := e.req.sweep == i && e.req.position == k

/-- Those settling or granted at a port. -/
def Port.heldFor (q : Port) (i : SweepNo) (k : Fin 16) : Nat :=
  q.settling.countP (fun m => m.entry.isFor i k)
    + (match q.granted with
       | some g =>
         match g.work with
         | .probe e _ _ => if e.isFor i k then 1 else 0
         | .transfer _ | .clear _ _ => 0
       | none => 0)

/-- Those granted at the converter. -/
def Converter.heldFor (c : Converter) (i : SweepNo) (k : Fin 16) : Nat :=
  match c.granted with
  | some g => if g.entry.isFor i k then 1 else 0
  | none => 0

/-- The outstanding probe requests for a position of a sweep (R46). -/
def State.outstanding (s : State) (i : SweepNo) (k : Fin 16) : Nat :=
  (s.port 0).arb.held i k + (s.port 0).heldFor i k + (s.port 1).arb.held i k + (s.port 1).heldFor i k
    + (s.port 2).arb.held i k + (s.port 2).heldFor i k + s.conv.arb.held i k + s.conv.heldFor i k

/-- R21, R40 and R46: none outstanding in EMPTY, IDLE and ARMED; in RUNNING exactly one for a PENDING or DEFERRED
position and none for another; in STOPPING at most one for a position, and as many in all as the remnant count. -/
def OutstandingLaw (s : State) : Prop :=
  ∀ i : SweepNo,
    match (s.sweep i).state with
    | .empty | .idle | .armed => ∀ k, s.outstanding i k = 0
    | .running => ∀ k : Fin 16,
        s.outstanding i k =
          (match (s.sweep i).positions[k.val]? with
           | some .pending | some .deferred => 1
           | some .complete | none => 0)
    | .stopping =>
        (∀ k, s.outstanding i k ≤ 1) ∧ (s.sweep i).remnant = ((List.finRange 16).map (s.outstanding i)).sum

/-! ### Result Store (R82) -/

/-- R82: at most four waiting fetches, each on a sweep that is ARMED or RUNNING. -/
structure WaiterLaw (s : State) : Prop where
  room : s.waiters.length ≤ 4
  waiting : ∀ w, w ∈ s.waiters → (s.sweep w.sweep).state.triggerable = true

/-! ### Ports and converter (R90, R91, R95, R97, R101, R124, R126, R128) -/

/-- Table 6-1: the granted entry that belongs to a port state. -/
def Port.stateFits (q : Port) : Prop :=
  match q.state, q.granted with
  | .idle, none | .blocked, none => True
  | .active, some g =>
    match g.work with
    | .probe _ _ _ | .transfer _ => True
    | .clear _ _ => False
  | .clearing, some g =>
    match g.work with
    | .clear _ _ => True
    | .probe _ _ _ | .transfer _ => False
  | _, _ => False

/-- What a two-wire port and its arbiter keep. -/
structure PortLaw (q : Port) : Prop where
  /-- Table 6-1, R91. -/
  fits : q.stateFits
  /-- R95: nothing is pending at a BLOCKED or CLEARING port. -/
  blocked : q.places = false → q.arb.pending = [] ∧ q.transfers = []
  /-- R90: at most eight direct transfers are pending. -/
  room : q.transfers.length ≤ 8
  /-- R97, R99: a configuration is held only during a grant. -/
  held : q.held.isSome = true → q.granted.isSome = true
  /-- R112: the stretch timer runs only during an operation. -/
  stretch : q.stretch.isSome = true → q.granted.isSome = true

/-- What the converter keeps. -/
structure ConverterLaw (c : Converter) : Prop where
  /-- Table 7-1, R124. -/
  granted : c.granted.isSome = true ↔ c.power = .waking ∨ c.power = .converting
  /-- R128: the idle timer runs only in READY. -/
  timer : c.idleTimer.isSome = true → c.power = .ready
  /-- R129. -/
  delay : c.idleDelay.toNat ≤ 250
  /-- R126: no sample value is above 4095. -/
  sum : ∀ g, c.granted = some g → g.sum ≤ 4095 * g.taken

/-! ### Watch Unit (R135, R140, R145) -/

/-- A FAILING slot is UNKNOWN (R140), and the dropped-event count saturates at 255 (R145). -/
structure WatchLaw (s : State) : Prop where
  failing : ∀ k, (s.watch k).health = .failing → (s.watch k).watch = .unknown
  dropped : s.dropped ≤ 255

end Sys2Proof.Machine
end

