-- ==== Sys2Proof/Certificates/Slice0/Obligations.lean ====
section
/-! DEFINITION. The statements for the provers. An equation `exec c s = .next t` says the whole next state: what `t` does
not name is unchanged, and that the command completes. -/

open Sys2Proof Sys2Proof.Machine

/-! ### The step -/

/-- The step of a state with a command at the front of its queue is that command's effect on the rest. -/
def Obligations.StepTakesFrontCommand : Prop :=
  ∀ (c : Instr) (rest : List Instr) (s : State), s.pending = c :: rest → step s = exec c { s with pending := rest }

/-- R150: the idle step never lets time pass over a due event; it takes one of the events that are due or waiting. The
choice among them is the model's (log 2), so nothing is said of which.

R46, R91, R128, R150: an expiry, the end of a wake and the end of a conversion at their time, a request issued and not yet
taken by its arbiter, and a due grant are such events: so the converter does not wait, nor power down, while a probe waits
for it. That issues and grants are taken in their own microsecond is the model's reading (log 2).

The model's choice (log 2): with nothing due, the idle step takes one of the events that wait, or is one microsecond of the
time base (R148), in which nothing else changes but a sample that ends. -/
def Obligations.IdleStepWaitsForDueEvents : Prop :=
  (∀ s : State, s.pending = [] → s.dueNow ≠ [] →
      ∃ c, c ∈ s.dueNow ++ s.waiting ∧ step s = exec c { s with free := s.free + 1 })
  ∧ (∀ s : State,
      (∃ i, (s.sweep i).timer = some s.time) ∨ (∃ w, w ∈ s.waiters ∧ w.deadline = s.time)
        ∨ (∃ p m, m ∈ (s.port p).settling ∧ m.expiry = s.time)
        ∨ (∃ p, (s.port p).stretch = some s.time ∧ (s.port p).granted ≠ none)
        ∨ (s.conv.idleTimer = some s.time ∧ s.conv.power = .ready)
        ∨ (∃ g, s.conv.power = .waking ∧ s.conv.granted = some g ∧ s.time = g.since + 50)
        ∨ (∃ g d, s.conv.power = .converting ∧ s.conv.granted = some g ∧ g.entry.req.copy.body = .analog d
            ∧ g.taken + 1 = d.samples ∧ s.time = g.since + BitVec.ofNat 32 (20 * d.samples))
        ∨ (∃ r, (s.arb r).issues ≠ [])
        ∨ (s.conv.granted = none ∧ s.conv.arb.pending ≠ [])
        ∨ (∃ p, (s.port p).granted = none ∧ (s.port p).state ≠ .blocked
            ∧ ((s.port p).arb.pending ≠ [] ∨ (s.port p).transfers ≠ [])) →
      s.dueNow ≠ [])
  ∧ (∀ s : State, s.pending = [] → s.dueNow = [] →
      (∃ c, c ∈ s.waiting ∧ step s = exec c { s with free := s.free + 1 })
      ∨ (s.conv.sampleEnds (s.time + 1) = false ∧ step s = .next { s with time := s.time + 1 })
      ∨ (∃ (g : Conversion) (v : Sample), s.conv.sampleEnds (s.time + 1) = true ∧ s.conv.granted = some g
          ∧ step s = .next
            { s with time := s.time + 1, free := s.free + 1,
                     conv := { s.conv with granted := some { g with taken := g.taken + 1, sum := g.sum + v.toNat } } }))

/-- Every command is answered by a next state: none faults and none is refused. A command whose occasion is not there leaves
the state as it is; that a command may be sent without its occasion is the model's choice (log 1). -/
def Obligations.EveryCommandAnswersNext : Prop :=
  (∀ (c : Instr) (s : State), ∃ t, exec c s = .next t)
  ∧ (∀ (c : Instr) (s : State),
      (s.hand.timeBase = [] ∧ c = .timeGet)
      ∨ (s.hand.probeTable = [] ∧ c ∈ [Instr.probeSet, .probeClear, .probeGet])
      ∨ (s.hand.sweepEngine = [] ∧ c ∈ [Instr.sweepSet, .sweepClear, .sweepArm, .sweepFire, .sweepStop, .sweepGet])
      ∨ (s.hand.resultStore = [] ∧ c = .resultFetch)
      ∨ (∃ o, s.hand.ports o = [] ∧ c ∈ [Instr.portSet o, .portGet o, .portClear o, .portXfer o])
      ∨ (s.hand.converter = [] ∧ c ∈ [Instr.analogSet, .analogGet])
      ∨ (s.inbox = [] ∧ c ∈ [Instr.watchGet, .watchReset, .completionCopy])
      ∨ (∃ p, (s.port p).arrivals = [] ∧ c = .hostEntryArrival p)
      ∨ (∃ i, (s.sweep i).timer ≠ some s.time ∧ c = .periodExpiry i)
      ∨ (∃ k, (∀ w, s.waiters[k]? = some w → w.deadline ≠ s.time) ∧ c = .waitExpiry k)
      ∨ (∃ p k, (∀ m, (s.port p).settling[k]? = some m → m.expiry ≠ s.time) ∧ c = .settleExpiry p k)
      ∨ (∃ p, (s.port p).stretch ≠ some s.time ∧ c = .stretchTimerExpiry p)
      ∨ (s.conv.idleTimer ≠ some s.time ∧ c = .idleTimerExpiry)
      ∨ (∃ r, (s.arb r).issues = [] ∧ c = .arbiterTakesIssue r)
      ∨ (∃ r, (s.arb r).done = [] ∧ c = .completion r)
      ∨ (∃ p, ((s.port p).granted ≠ none ∨ (s.port p).state = .blocked
          ∨ ((s.port p).arb.pending = [] ∧ (s.port p).transfers = [])) ∧ c = .grant (.tw p))
      ∨ ((s.conv.granted ≠ none ∨ s.conv.arb.pending = []) ∧ c = .grant .analog)
      ∨ (∃ p k data high, ((s.port p).granted = none ∨ (s.port p).stretch ≠ none)
          ∧ c ∈ [Instr.endOfPreludePhase p, .readPhaseEnd p data, .addrNak p k, .dataNak p k, .directTransferEnd p data,
                 .clearEnd p k high, .stretching p k])
      ∨ (∃ p, (s.port p).granted = none ∧ c = .contention p)
      ∨ (s.conv.power ≠ .waking ∧ c = .endOfWake) ∨ (∃ v, s.conv.power ≠ .converting ∧ c = .endOfConversion v) →
      exec c s = .next s)

/-! ### Reset -/

/-- The values the spec gives after a device reset (power-on, NRST released). -/
def Obligations.ResetValues : Prop :=
  (∀ k, State.reset.slot k = { record := none, refs := 0 })
  ∧ (∀ i, (State.reset.sweep i).state = .empty ∧ (State.reset.sweep i).defn = none ∧ (State.reset.sweep i).started = 0
      ∧ (State.reset.sweep i).sinceArm = 0 ∧ (State.reset.sweep i).missed = 0 ∧ (State.reset.sweep i).published = 0
      ∧ (State.reset.sweep i).timer = none ∧ (State.reset.sweep i).run = none ∧ (State.reset.sweep i).remnant = 0
      ∧ (State.reset.sweep i).held = [])
  ∧ (∀ i, (State.reset.pagesOf i).published = Page.cleared ∧ (State.reset.pagesOf i).work = Page.cleared)
  ∧ State.reset.waiters = []
  ∧ (∀ p, State.reset.port p =
      { arb := { issues := [], pending := [], age := 0, done := [] }, arrivals := [], transfers := [], granted := none,
        settling := [], held := none, state := .idle, config := { rate := .r100, stretchMs := 25 }, stretch := none,
        lastBlock := none })
  ∧ State.reset.conv = { arb := { issues := [], pending := [], age := 0, done := [] }, granted := none, power := .off,
                         idleDelay := 2, idleTimer := none }
  ∧ (∀ k, State.reset.watch k = { watch := .unknown, health := .good, faults := 0 })
  ∧ State.reset.dropped = 0 ∧ State.reset.inbox = [] ∧ State.reset.time = 0
  ∧ State.reset.hand = { timeBase := [], probeTable := [], sweepEngine := [], resultStore := [],
                         tw := Vector.replicate 3 [], portsBlock := [], converter := [] }
  ∧ State.reset.link.state = .closed ∧ State.reset.link.e = 0 ∧ State.reset.link.t = 0
  ∧ State.reset.link.queue = [{ kind := .hello, seq := 0, payload := [0, 1], sent := false }]
  ∧ State.reset.link.cursor = 0 ∧ State.reset.link.accepted = [] ∧ State.reset.link.orphans = []
  ∧ State.reset.link.crcNote = false ∧ State.reset.link.reason = .powerOn ∧ State.reset.link.exchange = none
  ∧ State.reset.link.attn = true

/-- The reset state keeps every law of Sys2Proof/Safety.lean. -/
def Obligations.ResetKeepsTheLaws : Prop :=
  LinkLaw State.reset.link ∧ ReferenceLaw State.reset ∧ (∀ i, SweepLaw (State.reset.sweep i)) ∧ OutstandingLaw State.reset
    ∧ WaiterLaw State.reset ∧ (∀ p, PortLaw (State.reset.port p)) ∧ ConverterLaw State.reset.conv ∧ WatchLaw State.reset

/-! ### Laws that every step keeps -/

/-- R161, R164, R166, R167, R168: the laws of the Host Link. -/
def Obligations.LinkLawKept : Prop := ∀ s t : State, LinkLaw s.link → step s = .next t → LinkLaw t.link

/-- R7: the law of the Probe Table. -/
def Obligations.ReferenceLawKept : Prop := ∀ s t : State, ReferenceLaw s → step s = .next t → ReferenceLaw t

/-- R19, R28, R33, R37, R39, R40, R45: the laws of a sweep context. -/
def Obligations.SweepLawKept : Prop :=
  ∀ s t : State, (∀ i, SweepLaw (s.sweep i)) → step s = .next t → ∀ i, SweepLaw (t.sweep i)

/-- R21, R46: each position has at most one outstanding probe request, and none outside RUNNING and STOPPING. -/
def Obligations.OutstandingLawKept : Prop :=
  ∀ s t : State, ReferenceLaw s → (∀ i, SweepLaw (s.sweep i)) → (∀ p, PortLaw (s.port p)) → OutstandingLaw s →
    step s = .next t → OutstandingLaw t

/-- R82: at most four waiters, each on an ARMED or RUNNING sweep. -/
def Obligations.WaiterLawKept : Prop := ∀ s t : State, WaiterLaw s → step s = .next t → WaiterLaw t

/-- R90, R91, R95, R97, R101: the laws of a port and its arbiter. -/
def Obligations.PortLawKept : Prop :=
  ∀ s t : State, (∀ p, PortLaw (s.port p)) → step s = .next t → ∀ p, PortLaw (t.port p)

/-- R124, R126, R128, R129: the laws of the converter.

R140, R145: a FAILING slot is UNKNOWN, and the dropped-event count saturates. -/
def Obligations.ConverterAndWatchLawsKept : Prop :=
  (∀ s t : State, ConverterLaw s.conv → step s = .next t → ConverterLaw t.conv)
  ∧ (∀ s t : State, WatchLaw s → step s = .next t → WatchLaw t)

/-- R166: under the law of the link, the queue of an OPEN link holds at most 24 frames, and at most 4 are sent. -/
def Obligations.QueueBounds : Prop :=
  ∀ l : Link, LinkLaw l → l.state = .opened →
    l.queue.length ≤ 24 ∧ l.queue.countP OutFrame.sent ≤ 4 ∧ l.queue.countP OutFrame.isReply ≤ 8

/-! ### Frames and payloads -/

/-- R160, R181, R182: a host frame as Table 11-3 lays it out, followed by any fill, is valid and read field by field. -/
def Obligations.HostFrameReadsBack : Prop :=
  ∀ (kind seq ack flags : Byte) (payload fill : List Byte), payload.length ≤ 120 →
    readHostFrame (hostFrameBytes kind seq ack flags payload ++ fill)
      = some { kind := kind, seq := seq, ack := ack, resend := flags.getLsbD 0, payload := payload }

/-- R15, R184: the record part of a PROBE.GET reply, sent back as a PROBE.SET payload, is valid and stores that record.

R6, R184: a valid PROBE.SET payload is in range, and a PROBE.GET reply carries it back byte for byte: no byte of a
valid definition is lost. -/
def Obligations.ProbePayloadRoundTrip : Prop :=
  (∀ (k : Fin 64) (r : ProbeRecord), r.inRange = true →
      (probeBytes (byteOf k.val) (some r)).length = 35 ∧ probeSlotOf (probeBytes (byteOf k.val) (some r)) = some k
        ∧ readProbe (probeBytes (byteOf k.val) (some r)) = some r)
  ∧ (∀ (p : List Byte) (r : ProbeRecord), p.length = 35 → readProbe p = some r →
      r.inRange = true ∧ probeBytes (readByte p 0) (some r) = p)

/-- R185: a SWEEP.SET payload as Table 11-6 lays it out is read field by field.

R22, R185: a valid SWEEP.SET payload is in range, and a SWEEP.GET reply carries it back byte for byte. -/
def Obligations.SweepPayloadRoundTrip : Prop :=
  (∀ (i : SweepNo) (d : SweepDef), d.inRange = true →
      (sweepBytes (some d)).length = 29 ∧ sweepOf (byteOf i.val :: sweepBytes (some d)) = some i
        ∧ readSweep (byteOf i.val :: sweepBytes (some d)) = .ok d)
  ∧ (∀ (p : List Byte) (d : SweepDef), p.length = 30 → readSweep p = .ok d →
      d.inRange = true ∧ readByte p 0 :: sweepBytes (some d) = p)

/-- R105: the address bytes of every target.

R104, Tables 6-2 and 6-3: the conditions and bytes of every phase and transfer, in their order, and the acknowledge bit the
port sends with each byte it receives: every one acknowledged but the last. `one`, `first` and `second` are the address
bytes, by their R/W bit.

Table 6-2 note c and Table 6-3: the bit times of every phase and transfer, without stretching. -/
def Obligations.AddressBytesAndBitTimes : Prop :=
  ((∀ a : BitVec 10, a.toNat ≤ 127 →
      addressForWrite .seven a = [BitVec.ofNat 8 (2 * a.toNat)] ∧ (addressForRead .seven a).toNat = 2 * a.toNat + 1)
    ∧ (∀ a : BitVec 10,
      addressForWrite .ten a = [0b11110#5 ++ a.extractLsb' 8 2 ++ 0#1, a.extractLsb' 0 8]
        ∧ addressForRead .ten a = 0b11110#5 ++ a.extractLsb' 8 2 ++ 1#1))
  ∧ (∀ (a : BitVec 10) (w : List Byte) (n : Nat) (reads : List BusItem) (one first : BitVec 1 → Byte) (second : Byte),
      0 < n → reads = List.replicate (n - 1) (.read true) ++ [.read false] →
      (∀ x, one x = a.extractLsb' 0 7 ++ x) → (∀ x, first x = 0b11110#5 ++ a.extractLsb' 8 2 ++ x) →
      second = a.extractLsb' 0 8 →
      busSequence .seven a w 0 = [.start, .address (one 0)] ++ w.map .write ++ [.stop]
      ∧ busSequence .seven a [] n = [.start, .address (one 1)] ++ reads ++ [.stop]
      ∧ (w ≠ [] → busSequence .seven a w n =
          [.start, .address (one 0)] ++ w.map .write ++ [.repeatedStart, .address (one 1)] ++ reads ++ [.stop])
      ∧ busSequence .ten a w 0 = [.start, .address (first 0), .address second] ++ w.map .write ++ [.stop]
      ∧ busSequence .ten a w n =
          [.start, .address (first 0), .address second] ++ w.map .write ++ [.repeatedStart, .address (first 1)] ++ reads
            ++ [.stop])
  ∧ (∀ d : TwoWire,
      (∀ pre, d.prelude = some pre → phaseSequence d .prelude = busSequence d.mode d.addr pre.bytes 0)
      ∧ phaseSequence d .read = busSequence d.mode d.addr d.index d.readLen)
  ∧ ((∀ (a : BitVec 10) (w : List Byte), bitTimes (busSequence .seven a w 0) = 2 + 9 * (1 + w.length)
        ∧ bitTimes (busSequence .ten a w 0) = 2 + 9 * (2 + w.length))
    ∧ (∀ (a : BitVec 10) (b : Byte) (w : List Byte) (n : Nat), 0 < n →
        bitTimes (busSequence .seven a (b :: w) n) = 3 + 9 * (2 + (w.length + 1) + n))
    ∧ (∀ (a : BitVec 10) (n : Nat), 0 < n → bitTimes (busSequence .seven a [] n) = 2 + 9 * (1 + n))
    ∧ (∀ (a : BitVec 10) (w : List Byte) (n : Nat), 0 < n →
        bitTimes (busSequence .ten a w n) = 3 + 9 * (3 + w.length + n)))

/-! ### Host Link -/

/-- R157, R158: SEL_ASSERTION begins an exchange with the offer chosen and composed; the CRC-error note is cleared.

R181, R182, Table 11-3: the bytes of a part frame, its CRC over everything between the sync byte and itself; the FLAGS are
MORE in bit 0, BUSY in bit 1 and CRCERR in bit 2, and bits 3 to 7 are 0.

R182: the CRC: the register `r` begins at FFFF hex; each byte is combined into its upper eight bits, and then eight times the
register is shifted left and, when the bit shifted out was 1, combined with 1021 hex. -/
def Obligations.SelAssertionFixesOffer : Prop :=
  (∀ s : State, s.link.sel = false → s.link.nrst = false →
    ∃ x, exec .selAssertion s = .next { s with link := { s.link with sel := true, exchange := some x, crcNote := false } }
      ∧ (∀ f rest, s.link.state = .closed → s.link.queue = f :: rest →
          x = { offer := partFrame f.kind.code f.seq (s.link.e - 1)
                  (flagsByte false (decide (8 ≤ s.link.use)) s.link.crcNote) f.payload, queued := false })
      ∧ (∀ f, s.link.state = .opened → s.link.cursor < 4 → s.link.queue[s.link.cursor]? = some f →
          x = { offer := partFrame f.kind.code f.seq (s.link.e - 1)
                  (flagsByte (decide (s.link.cursor + 1 < 4 ∧ s.link.cursor + 1 < s.link.queue.length))
                    (decide (8 ≤ s.link.use)) s.link.crcNote) f.payload, queued := true })
      ∧ (s.link.state = .opened → 4 ≤ s.link.cursor ∨ s.link.queue.length ≤ s.link.cursor →
          x = { offer := partFrame 0xC0 s.link.t (s.link.e - 1)
                  (flagsByte false (decide (8 ≤ s.link.use)) s.link.crcNote) [], queued := false }))
  ∧ (∀ (kind seq ack flags : Byte) (payload : List Byte) (check : Half),
      check = crc ([BitVec.ofNat 8 payload.length, kind, seq, ack, flags] ++ payload) →
      partFrame kind seq ack flags payload = [0xA5, BitVec.ofNat 8 payload.length, kind, seq, ack, flags] ++ payload
        ++ [check.extractLsb' 8 8, check.extractLsb' 0 8])
  ∧ (∀ (more busy crcErr : Bool) (k : Nat), (flagsByte more busy crcErr).getLsbD k =
      ((k == 0 && more) || (k == 1 && busy) || (k == 2 && crcErr)))
  ∧ crc [] = 0xFFFF
  ∧ (∀ (l : List Byte) (b : Byte) (r : Nat → Half), r 0 = crc l ^^^ (b ++ 0#8) →
      (∀ k, k < 8 → r (k + 1) = if (r k).getLsbD 15 then (r k <<< 1) ^^^ 0x1021 else r k <<< 1) → crc (l ++ [b]) = r 8)

/-- R173: NRST resets the part and cuts off the exchange; while it is asserted an assertion of SEL begins no exchange;
an exchange that was not begun ends without effect; after the release exchanges begin again.

That the command queue, the free index and SEL stay is the model's (log 22). -/
def Obligations.NrstResetsAndHoldsOffExchanges : Prop :=
  ∀ s : State,
    exec .nrstAssertion s = .next { State.reset with
      pending := s.pending, free := s.free, link := { State.reset.link with sel := s.link.sel, nrst := true } }
    ∧ exec .nrstRelease s = .next { s with link := { s.link with nrst := false } }
    ∧ (s.link.sel = false → s.link.nrst = true → exec .selAssertion s = .next { s with link := { s.link with sel := true } })
    ∧ (∀ sdi, s.link.sel = true → s.link.exchange = none →
        exec (.exchangeEnd sdi) s = .next { s with link := { s.link with sel := false } })

/-- R159: what settling an offer does: only a complete offer of a queued frame moves anything.

R160: a frame that is not valid sets the CRC-error note and does nothing else, in CLOSED and in OPEN. -/
def Obligations.OfferSettlesAndInvalidFrameNoted : Prop :=
  (∀ (s : State) (x : Exchange) (sdi : List Byte),
      (x.queued = false ∨ sdi.length < x.offer.length →
        s.offerSettled x sdi = { s with link := { s.link with sel := false, exchange := none } })
      ∧ (∀ f, x.queued = true → x.offer.length ≤ sdi.length → s.link.queue[s.link.cursor]? = some f →
          (s.offerSettled x sdi).link =
            Link.refresh { s.link with
              sel := false, exchange := none, cursor := s.link.cursor + 1,
              queue := s.link.queue.set s.link.cursor { f with sent := true } }))
  ∧ ((∀ (s : State) (x : Exchange) (sdi : List Byte), s.link.sel = true → s.link.exchange = some x → readHostFrame sdi = none →
      exec (.exchangeEnd sdi) s = .next ((s.offerSettled x sdi).setLink
        { (s.offerSettled x sdi).link with crcNote := true }))
    ∧ (∀ sdi : List Byte,
        readByte sdi 0 ≠ 0x5A ∨ 120 < readNat sdi 1 ∨ sdi.length < readNat sdi 1 + 8
          ∨ readHalf sdi (6 + readNat sdi 1) ≠ crc (places sdi 1 (5 + readNat sdi 1)) → readHostFrame sdi = none))

/-- R161, R162: a NULL frame taken in OPEN applies its ACK and its RESEND flag and nothing more.

R163: a request frame whose SEQ is not E (a duplicate among them), or that finds the use at 8, leaves no trace but its
ACK and RESEND. -/
def Obligations.FramesHeardButNotAccepted : Prop :=
  (∀ (s : State) (x : Exchange) (sdi : List Byte) (f : HostFrame), s.link.sel = true → s.link.exchange = some x →
      readHostFrame sdi = some f → f.kind = 0 → s.link.state = .opened →
      exec (.exchangeEnd sdi) s = .next ((s.offerSettled x sdi).setLink ((s.offerSettled x sdi).link.heard f)))
  ∧ (∀ (s : State) (x : Exchange) (sdi : List Byte) (f : HostFrame), s.link.sel = true → s.link.exchange = some x →
      readHostFrame sdi = some f → ¬ f.isOpen → s.link.state = .opened →
      (f.seq ≠ ((s.offerSettled x sdi).link.heard f).e ∨ 8 ≤ ((s.offerSettled x sdi).link.heard f).use) →
      exec (.exchangeEnd sdi) s = .next ((s.offerSettled x sdi).setLink ((s.offerSettled x sdi).link.heard f)))

/-- R161: an ACK that names a sent frame retires it and every frame before it, and moves the cursor back by the number
removed but not below 0; an ACK that names no sent frame is ignored whole.

R162: RESEND moves the cursor to the oldest frame; sent marks stay; with the cursor at 0 nothing changes.

R167: ATTN after an operation of the link. -/
def Obligations.AcknowledgeResendAttention : Prop :=
  (∀ (l : Link) (ack : Byte), LinkLaw l → l.state = .opened →
      (∀ k f, l.queue[k]? = some f → f.sent = true → f.seq = ack →
        l.acknowledge ack = Link.refresh { l with queue := l.queue.drop (k + 1), cursor := l.cursor - (k + 1) })
      ∧ ((∀ f, f ∈ l.queue → f.sent = true → f.seq ≠ ack) → l.acknowledge ack = l))
  ∧ (∀ l : Link, (l.resend true).cursor = 0 ∧ (l.resend true).queue = l.queue ∧ l.resend false = l
      ∧ (l.cursor = 0 → l.attn = l.attnDue → l.resend true = l)
      ∧ l.resend true = { l with cursor := 0, attn := (l.resend true).attn })
  ∧ (∀ l : Link, (Link.refresh l).attn = true ↔
      l.state = .closed ∨ (l.state = .opened ∧ l.cursor < 4 ∧ l.cursor < l.queue.length))

/-- R163, R174: a request frame of SEQ E, with use below 8, of a request kind and its LEN, is accepted and appended to its
owner's list.

R174: the list of the owner grows by the request, and no other list.

Table 11-1: the KIND code and the LEN of every request. -/
def Obligations.RequestAcceptedAndRouted : Prop :=
  (∀ (s : State) (x : Exchange) (sdi : List Byte) (f : HostFrame) (l : Link) (k : ReqKind) (ref : ReqRef),
      s.link.sel = true → s.link.exchange = some x → readHostFrame sdi = some f → s.link.state = .opened →
      l = (s.offerSettled x sdi).link.heard f → f.seq = l.e → l.use < 8 →
      f.kind = k.code → f.payload.length = k.len →
      ref = { id := l.nextId, seq := f.seq, replyKind := 0x80 + f.kind } →
      exec (.exchangeEnd sdi) s = .next ((((s.offerSettled x sdi).setLink
        { l with e := l.e + 1, accepted := l.accepted ++ [ref], nextId := l.nextId + 1 })).handOff
          { ref := ref, kind := k, payload := f.payload }))
  ∧ (∀ (s : State) (r : Request),
      (r.kind = .timeGet → s.handOff r = { s with hand := { s.hand with timeBase := s.hand.timeBase ++ [r] } })
      ∧ (r.kind ∈ [ReqKind.probeSet, .probeClear, .probeGet] →
          s.handOff r = { s with hand := { s.hand with probeTable := s.hand.probeTable ++ [r] } })
      ∧ (r.kind ∈ [ReqKind.sweepSet, .sweepClear, .sweepArm, .sweepFire, .sweepStop, .sweepGet] →
          s.handOff r = { s with hand := { s.hand with sweepEngine := s.hand.sweepEngine ++ [r] } })
      ∧ (r.kind = .resultFetch → s.handOff r = { s with hand := { s.hand with resultStore := s.hand.resultStore ++ [r] } })
      ∧ (r.kind ∈ [ReqKind.portSet, .portGet, .portClear, .portXfer] →
          (∀ p : PortNo, readNat r.payload 0 = p.val →
            s.handOff r = { s with hand := { s.hand with tw := s.hand.tw.set p (s.hand.tw[p] ++ [r]) } })
          ∧ (2 < readNat r.payload 0 →
              s.handOff r = { s with hand := { s.hand with portsBlock := s.hand.portsBlock ++ [r] } }))
      ∧ (r.kind ∈ [ReqKind.analogSet, .analogGet] →
          s.handOff r = { s with hand := { s.hand with converter := s.hand.converter ++ [r] } })
      ∧ (r.kind ∈ [ReqKind.watchGet, .watchReset] → s.handOff r = { s with inbox := s.inbox ++ [.request r] }))
  ∧ [ReqKind.timeGet, .probeSet, .probeClear, .probeGet, .sweepSet, .sweepClear, .sweepArm, .sweepFire, .sweepStop, .sweepGet,
      .resultFetch, .portSet, .portGet, .portClear, .portXfer, .analogSet, .analogGet, .watchGet, .watchReset].map
        (fun k => (k.code, k.len))
      = [(0x03, 0), (0x08, 35), (0x09, 1), (0x0A, 1), (0x10, 30), (0x11, 1), (0x12, 1), (0x13, 1), (0x14, 1), (0x15, 1),
         (0x18, 10), (0x20, 3), (0x21, 1), (0x22, 1), (0x23, 22), (0x28, 1), (0x29, 0), (0x30, 1), (0x31, 1)]

/-- R176, R177: the link answers an accepted request of unknown KIND, or of a wrong LEN, at once, and hands it to no owner.
`kind` is the KIND of the reply and `body` what follows the SEQ in its payload. -/
def Obligations.LinkRefusesAtOnce : Prop :=
  ∀ (s : State) (x : Exchange) (sdi : List Byte) (f : HostFrame) (l : Link) (kind : Byte) (body : List Byte),
    s.link.sel = true → s.link.exchange = some x → readHostFrame sdi = some f → s.link.state = .opened →
    l = (s.offerSettled x sdi).link.heard f → f.seq = l.e → l.use < 8 → (∀ r, r ∈ l.accepted → r.id ≠ l.nextId) →
    ((∃ k : ReqKind, f.kind = k.code ∧ f.payload.length ≠ k.len ∧ kind = 0x80 + f.kind ∧ body = [0x07])
      ∨ ((f.kind = 0x01 ∨ f.kind = 0x02) ∧ f.payload ≠ [] ∧ kind = 0x80 + f.kind ∧ body = [0x07])
      ∨ ((∀ k : ReqKind, f.kind ≠ k.code) ∧ f.kind ∉ [0x00, 0x01, 0x02] ∧ kind = 0x80 ∧ body = [0x08, f.kind])) →
    exec (.exchangeEnd sdi) s = .next ((s.offerSettled x sdi).setLink (Link.refresh { l with
      e := l.e + 1, nextId := l.nextId + 1, t := l.t + 1,
      queue := l.queue ++ [{ kind := .reply kind, seq := l.t, payload := f.seq :: body, sent := false }] }))

/-- R168, R169: in CLOSED an OPEN frame starts the link, and any other valid frame is ignored. -/
def Obligations.ClosedLinkAttendsToOpenOnly : Prop :=
  ∀ (s : State) (x : Exchange) (sdi : List Byte) (f : HostFrame), LinkLaw s.link → s.link.sel = true →
    s.link.exchange = some x → readHostFrame sdi = some f → s.link.state = .closed →
    (f.isOpen → exec (.exchangeEnd sdi) s = .next { s with link := { s.link with
        sel := false, exchange := none, state := .opened, e := f.seq + 1, t := 1, cursor := 0, attn := true,
        queue := [OutFrame.openReply f.seq s.link.reason.code 0] } })
    ∧ (¬ f.isOpen → exec (.exchangeEnd sdi) s = .next { s with link := { s.link with sel := false, exchange := none } })

/-- R170, R86, R147: a link restart counts the queued events as dropped, drops the waiters with their requests, orphans the
other accepted requests, and starts the link afresh; the rest of the part is as it stood. -/
def Obligations.OpenRestartsLink : Prop :=
  ∀ (s : State) (x : Exchange) (sdi : List Byte) (f : HostFrame) (moved : List ReqRef), s.link.sel = true →
    s.link.exchange = some x → readHostFrame sdi = some f → f.isOpen → s.link.state = .opened →
    moved = s.link.accepted.filter (fun r => s.waiters.all (fun w => w.ref.id != r.id)) →
    exec (.exchangeEnd sdi) s = .next { s with
      dropped := min 255 (s.dropped + s.link.queue.countP OutFrame.isEvent), waiters := [],
      link := { s.link with
        sel := false, exchange := none, e := f.seq + 1, t := 1, cursor := 0, attn := true, accepted := [],
        orphans := s.link.orphans ++ moved,
        queue := [OutFrame.openReply f.seq 2 (BitVec.ofNat 8 moved.length)] } }

/-- R172, R179: an accepted DEVICE.RESET returns the whole part to its reset state, with a HELLO frame of reason
HOST_RESET; what the model keeps is its own queue and free index (log 22). -/
def Obligations.DeviceResetRequest : Prop :=
  ∀ (s : State) (x : Exchange) (sdi : List Byte) (f : HostFrame), s.link.sel = true → s.link.exchange = some x →
    readHostFrame sdi = some f → f.kind = 0x02 → f.payload = [] → s.link.state = .opened →
    f.seq = ((s.offerSettled x sdi).link.heard f).e → ((s.offerSettled x sdi).link.heard f).use < 8 →
    exec (.exchangeEnd sdi) s = .next { State.reset with
      pending := s.pending, free := s.free,
      link := { State.reset.link with
        queue := [{ kind := .hello, seq := 0, payload := [1, 1], sent := false }], reason := .hostReset } }

/-- R165: the reply of an accepted request leaves the accepted set and is appended with SEQ T; that of an orphan is
discarded. Nothing outside the link changes.

Table 11-2, Table 11-1 note c, Table 11-4: the status codes, the KINDs of the outbound frames, and the codes of enumerated
fields. -/
def Obligations.ReplyAppendedOrDiscarded : Prop :=
  (∀ (s : State) (ref : ReqRef) (status : Status) (items : List Byte),
    (∀ before after, s.link.accepted = before ++ ref :: after → (∀ r, r ∈ before → r.id ≠ ref.id) →
      s.reply ref status items = { s with link := Link.refresh { s.link with
        accepted := before ++ after, t := s.link.t + 1,
        queue := s.link.queue ++ [{ kind := .reply ref.replyKind, seq := s.link.t,
                                    payload := ref.seq :: status.code :: items, sent := false }] } })
    ∧ (∀ before after, (∀ r, r ∈ s.link.accepted → r.id ≠ ref.id) → s.link.orphans = before ++ ref :: after →
        (∀ r, r ∈ before → r.id ≠ ref.id) →
        s.reply ref status items = { s with link := { s.link with orphans := before ++ after } }))
  ∧ [Status.ok, .busy, .noSweep, .noProbe, .inUse, .badArg, .badList, .badFrame, .unknownKind, .notArmed, .portBlocked,
      .notBlocked, .stuck, .noPass, .stale, .timeout, .waitersFull, .addrNak, .dataNak, .stretchTimeout, .contention].map
        Status.code
      = [0x00, 0x01, 0x02, 0x03, 0x04, 0x05, 0x06, 0x07, 0x08, 0x09, 0x0A, 0x0B, 0x0C, 0x0D, 0x0E, 0x0F, 0x10, 0x11, 0x12,
         0x13, 0x14]
  ∧ [CompStatus.done, .addrNak, .dataNak, .stretchTimeout, .contention, .portBlocked].map CompStatus.code
      = [0x00, 0x11, 0x12, 0x13, 0x14, 0x0A]
  ∧ (∀ kind, (OutKind.reply kind).code = kind)
  ∧ [OutKind.hello, .pass, .watch, .health, .halt].map OutKind.code = [0xC1, 0xC8, 0xC9, 0xCA, 0xCB]
  ∧ [SweepState.empty, .idle, .armed, .running, .stopping].map SweepState.code = [0, 1, 2, 3, 4]
  ∧ [PortState.idle, .active, .blocked, .clearing].map PortState.code = [0, 1, 2, 3]
  ∧ [Rate.r100, .r400].map Rate.code = [0, 1]
  ∧ [Power.off, .waking, .ready, .converting].map Power.code = [0, 1, 2, 3]
  ∧ [WatchState.unknown, .low, .normal, .high].map WatchState.code = [0, 1, 2, 3]
  ∧ [Health.good, .failing].map Health.code = [0, 1]
  ∧ [Reason.powerOn, .hostReset, .restart].map Reason.code = [0, 1, 2]
  ∧ (∀ period phase j, [Trigger.period period phase, .host, .chain j].map Trigger.code = [1, 2, 3])
  ∧ [Overrun.skip, .restart].map Overrun.code = [0, 1] ∧ [FaultPolicy.continue, .halt].map FaultPolicy.code = [0, 1]
  ∧ [AddrMode.seven, .ten].map AddrMode.code = [7, 10] ∧ [ByteOrder.big, .little].map ByteOrder.code = [0, 1]
  ∧ [Signedness.unsigned, .signed].map Signedness.code = [0, 1]

/-- R145: event admission. -/
def Obligations.EventAdmission : Prop :=
  ∀ (s : State) (kind : OutKind) (items : List Byte),
    (s.link.queue.countP OutFrame.isEvent < 16 →
      s.offerEvent kind items = { s with dropped := 0, link := Link.refresh { s.link with
        t := s.link.t + 1,
        queue := s.link.queue ++ [{ kind := kind, seq := s.link.t, payload := BitVec.ofNat 8 s.dropped :: items,
                                    sent := false }] } })
    ∧ (16 ≤ s.link.queue.countP OutFrame.isEvent →
        s.offerEvent kind items = { s with dropped := if s.dropped < 255 then s.dropped + 1 else 255 })

/-! ### Time Base and Probe Table -/

/-- R148: TIME_GET is answered OK with the time base.

R15: PROBE_GET changes no state; it answers BAD_ARG above 63 and OK with state, count and record otherwise.

R44, R185: SWEEP_GET changes no state and reports the sweep.

The zeros of the BAD_ARG replies of PROBE.GET and SWEEP.GET are the model's reading of R177 (log 14); `armExpiry` is its mark of
a first expiry that falls at the arm and is still to be taken (log 9). -/
def Obligations.ReadingRequestsReport : Prop :=
  (∀ (s : State) (r : Request) (rest : List Request), s.hand.timeBase = r :: rest → r.kind = .timeGet →
      exec .timeGet s = .next (State.reply { s with hand := { s.hand with timeBase := rest } } r.ref .ok (be32 s.time)))
  ∧ (∀ (s : State) (r : Request) (rest : List Request), s.hand.probeTable = r :: rest → r.kind = .probeGet →
      (63 < readNat r.payload 0 → exec .probeGet s = .next (State.reply
        { s with hand := { s.hand with probeTable := rest } } r.ref .badArg (List.replicate 37 0)))
      ∧ (∀ k : Fin 64, readNat r.payload 0 = k.val → exec .probeGet s = .next (State.reply
          { s with hand := { s.hand with probeTable := rest } } r.ref .ok
          ((if (s.slot k).record.isSome then 1 else 0) :: byteOf (s.slot k).refs
            :: probeBytes (byteOf k.val) (s.slot k).record))))
  ∧ (∀ (s : State) (r : Request) (rest : List Request), s.hand.sweepEngine = r :: rest → r.kind = .sweepGet →
      (7 < readNat r.payload 0 → exec .sweepGet s = .next (State.reply
        { s with hand := { s.hand with sweepEngine := rest } } r.ref .badArg (List.replicate 47 0)))
      ∧ (∀ i : SweepNo, readNat r.payload 0 = i.val → (s.sweep i).armExpiry = false → exec .sweepGet s = .next (State.reply
          { s with hand := { s.hand with sweepEngine := rest } } r.ref .ok
          ([byteOf i.val, (s.sweep i).state.code] ++ sweepBytes (s.sweep i).defn ++ be32 (s.sweep i).started
            ++ be32 (s.sweep i).sinceArm ++ be16 (BitVec.ofNat 16 (s.sweep i).missed) ++ be32 (s.sweep i).published
            ++ [byteOf (if (s.sweep i).state = .running then (s.sweep i).positions.count .complete else 0),
                byteOf (s.sweep i).remnant]))))

/-- R10, R11, R12: a valid PROBE.SET for a slot not in use stores its definition, keeps the reference count, and makes the
slot UNKNOWN, GOOD and 0; the reply carries the slot and its count. What has reached the Watch Unit is taken first (R134, log 7).

R6, R10, R12: an invalid PROBE.SET is refused BAD_ARG; a valid one for a slot that an ARMED, RUNNING or STOPPING sweep
names is refused IN_USE. Neither changes a slot or the Watch Unit.

R134: taking what has reached the Watch Unit is taking it in order, each thing as its command takes it. -/
def Obligations.ProbeSetCases : Prop :=
  (∀ (s : State) (r : Request) (rest : List Request) (k : Fin 64) (rec : ProbeRecord) (u : State),
      s.hand.probeTable = r :: rest → r.kind = .probeSet → readNat r.payload 0 = k.val → readProbe r.payload = some rec →
      (∀ i, (s.sweep i).state = .empty ∨ (s.sweep i).state = .idle ∨ k ∉ (s.sweep i).list) →
      u = State.takeInbox { s with hand := { s.hand with probeTable := rest } } →
      exec .probeSet s = .next (State.reply
        { u with slots := s.slots.set k { s.slot k with record := some rec },
                 watches := u.watches.set k { watch := .unknown, health := .good, faults := 0 } }
        r.ref .ok [byteOf k.val, byteOf (s.slot k).refs]))
  ∧ (∀ s : State, s.inbox = [] → s.takeInbox = s)
  ∧ (∀ (s : State) (x : WatchItem) (rest : List WatchItem), s.inbox = x :: rest →
      s.takeInbox = State.takeInbox (State.setInbox (State.takeItem { s with inbox := [] } x) rest))
  ∧ (∀ (s : State) (r : Request) (rest : List Request), s.hand.probeTable = r :: rest → r.kind = .probeSet →
      (63 < readNat r.payload 0 → exec .probeSet s = .next (State.reply
        { s with hand := { s.hand with probeTable := rest } } r.ref .badArg [readByte r.payload 0, 0]))
      ∧ (∀ k : Fin 64, readNat r.payload 0 = k.val → readProbe r.payload = none →
          exec .probeSet s = .next (State.reply
            { s with hand := { s.hand with probeTable := rest } } r.ref .badArg [byteOf k.val, byteOf (s.slot k).refs]))
      ∧ (∀ (k : Fin 64) (rec : ProbeRecord) (i : SweepNo), readNat r.payload 0 = k.val → readProbe r.payload = some rec →
          (s.sweep i).state ≠ .empty → (s.sweep i).state ≠ .idle → k ∈ (s.sweep i).list →
          exec .probeSet s = .next (State.reply
            { s with hand := { s.hand with probeTable := rest } } r.ref .inUse [byteOf k.val, byteOf (s.slot k).refs])))
  ∧ (∀ s : State, s.inbox = [] → s.takeInbox = s)
  ∧ (∀ (s u : State) (x : WatchItem) (rest : List WatchItem) (c : Instr), s.inbox = x :: rest →
      ((∃ copy, x = .copy copy) ∧ c = .completionCopy)
        ∨ (∃ r, x = .request r ∧ ((r.kind = .watchGet ∧ c = .watchGet) ∨ (r.kind = .watchReset ∧ c = .watchReset))) →
      exec c s = .next u → s.takeInbox = u.takeInbox)

/-- R12, R13, R14: PROBE_CLEAR in its four cases. In the last one what has reached the Watch Unit is taken first (R134,
log 7). -/
def Obligations.ProbeClearCases : Prop :=
  ∀ (s : State) (r : Request) (rest : List Request), s.hand.probeTable = r :: rest → r.kind = .probeClear →
    (63 < readNat r.payload 0 → exec .probeClear s = .next (State.reply
      { s with hand := { s.hand with probeTable := rest } } r.ref .badArg [readByte r.payload 0, 0]))
    ∧ (∀ k : Fin 64, readNat r.payload 0 = k.val →
        (0 < (s.slot k).refs → exec .probeClear s = .next (State.reply
          { s with hand := { s.hand with probeTable := rest } } r.ref .inUse [byteOf k.val, byteOf (s.slot k).refs]))
        ∧ ((s.slot k).refs = 0 → (s.slot k).record = none → exec .probeClear s = .next (State.reply
          { s with hand := { s.hand with probeTable := rest } } r.ref .ok [byteOf k.val, 0]))
        ∧ (∀ u, (s.slot k).refs = 0 → (s.slot k).record ≠ none →
          u = State.takeInbox { s with hand := { s.hand with probeTable := rest } } →
          exec .probeClear s = .next (State.reply
            { u with slots := s.slots.set k { record := none, refs := 0 },
                     watches := u.watches.set k { watch := .unknown, health := .good, faults := 0 } }
            r.ref .ok [byteOf k.val, 0])))

/-! ### Sweep Engine -/

/-- R8, R22, R24: a SWEEP.SET that no ground refuses makes the sweep IDLE with the definition, zeroes the counters, clears
both pages and moves the reference counts from the old list to the new.

R22: the five grounds in their order; a refused SWEEP.SET changes nothing but its list and its reply.

That the cleared pages keep their roles and the work page becomes unused is the model's choice (log 13). `armExpiry` is the model's mark of a first expiry still to be taken (log 9). -/
def Obligations.SweepSetCases : Prop :=
  (∀ (s : State) (r : Request) (rest : List Request) (i : SweepNo) (d : SweepDef),
      s.hand.sweepEngine = r :: rest → r.kind = .sweepSet → sweepOf r.payload = some i → readSweep r.payload = .ok d →
      (s.sweep i).armExpiry = false → (s.sweep i).state = .empty ∨ (s.sweep i).state = .idle →
      (∀ k, k ∈ d.list → (s.slot k).record.isSome = true) →
      exec .sweepSet s = .next (State.reply
        { s with
          hand := { s.hand with sweepEngine := rest }
          slots := Vector.ofFn fun k =>
            { s.slot k with refs := (s.slot k).refs - (s.sweep i).list.count k + d.list.count k }
          sweeps := s.sweeps.set i { state := .idle, defn := some d, started := 0, sinceArm := 0, missed := 0, published := 0,
                                     timer := none, armExpiry := false, run := none, remnant := 0, held := [] }
          pages := s.pages.set i { s.pagesOf i with a := Page.cleared, b := Page.cleared, workUsed := false } }
        r.ref .ok [byteOf i.val, 1, 0]))
  ∧ (∀ (s : State) (r : Request) (rest : List Request), s.hand.sweepEngine = r :: rest → r.kind = .sweepSet →
      (7 < readNat r.payload 0 → exec .sweepSet s = .next (State.reply
        { s with hand := { s.hand with sweepEngine := rest } } r.ref .badArg [readByte r.payload 0, 0, 0]))
      ∧ (∀ i : SweepNo, readNat r.payload 0 = i.val → (s.sweep i).armExpiry = false →
          ((s.sweep i).state = .armed ∨ (s.sweep i).state = .running ∨ (s.sweep i).state = .stopping →
            exec .sweepSet s = .next (State.reply { s with hand := { s.hand with sweepEngine := rest } } r.ref .busy
              [byteOf i.val, (s.sweep i).state.code, 0]))
          ∧ ((s.sweep i).state = .empty ∨ (s.sweep i).state = .idle →
              (readSource r.payload = none ∨ policiesOk r.payload = false →
                exec .sweepSet s = .next (State.reply { s with hand := { s.hand with sweepEngine := rest } } r.ref .badArg
                  [byteOf i.val, (s.sweep i).state.code, 0]))
              ∧ (readSource r.payload ≠ none → policiesOk r.payload = true → sweepListOk r.payload = false →
                exec .sweepSet s = .next (State.reply { s with hand := { s.hand with sweepEngine := rest } } r.ref .badList
                  [byteOf i.val, (s.sweep i).state.code, 0]))
              ∧ (∀ (d : SweepDef) (k : Fin 64), readSweep r.payload = .ok d → k ∈ d.list → (s.slot k).record = none →
                  (∀ j : Fin 64, j.val < k.val → j ∈ d.list → (s.slot j).record ≠ none) →
                exec .sweepSet s = .next (State.reply { s with hand := { s.hand with sweepEngine := rest } } r.ref .noProbe
                  [byteOf i.val, (s.sweep i).state.code, byteOf k.val])))))

/-- R9, R25, R26: SWEEP_CLEAR by sweep number and state.

R27, R152: SWEEP_ARM of an IDLE sweep: ARMED, two counters zeroed, the timer of a PERIOD sweep started with the phase;
its refusals. (`armExpiry` is the model's mark of a first expiry that falls at the arm: it is set exactly for a PERIOD
sweep of phase 0, log 9.)

The zeros of a refused SWEEP.ARM are the model's reading of R177 (log 14). -/
def Obligations.SweepClearAndArmCases : Prop :=
  (∀ (s : State) (r : Request) (rest : List Request), s.hand.sweepEngine = r :: rest → r.kind = .sweepClear →
      (7 < readNat r.payload 0 → exec .sweepClear s = .next (State.reply
        { s with hand := { s.hand with sweepEngine := rest } } r.ref .badArg [readByte r.payload 0, 0]))
      ∧ (∀ i : SweepNo, readNat r.payload 0 = i.val → (s.sweep i).armExpiry = false →
          ((s.sweep i).state = .empty → exec .sweepClear s = .next (State.reply
            { s with hand := { s.hand with sweepEngine := rest } } r.ref .ok [byteOf i.val, 0]))
          ∧ ((s.sweep i).state = .armed ∨ (s.sweep i).state = .running ∨ (s.sweep i).state = .stopping →
              exec .sweepClear s = .next (State.reply
                { s with hand := { s.hand with sweepEngine := rest } } r.ref .busy [byteOf i.val, (s.sweep i).state.code]))
          ∧ ((s.sweep i).state = .idle → exec .sweepClear s = .next (State.reply
              { s with
                hand := { s.hand with sweepEngine := rest }
                slots := Vector.ofFn fun k => { s.slot k with refs := (s.slot k).refs - (s.sweep i).list.count k }
                sweeps := s.sweeps.set i { s.sweep i with state := .empty, defn := none } }
              r.ref .ok [byteOf i.val, 0]))))
  ∧ (∀ (s : State) (r : Request) (rest : List Request), s.hand.sweepEngine = r :: rest → r.kind = .sweepArm →
      (7 < readNat r.payload 0 → exec .sweepArm s = .next (State.reply
        { s with hand := { s.hand with sweepEngine := rest } } r.ref .badArg [0, 0]))
      ∧ (∀ i : SweepNo, readNat r.payload 0 = i.val → (s.sweep i).armExpiry = false →
          ((s.sweep i).state = .empty → exec .sweepArm s = .next (State.reply
            { s with hand := { s.hand with sweepEngine := rest } } r.ref .noSweep [0, 0]))
          ∧ ((s.sweep i).state = .armed ∨ (s.sweep i).state = .running ∨ (s.sweep i).state = .stopping →
              exec .sweepArm s = .next (State.reply
                { s with hand := { s.hand with sweepEngine := rest } } r.ref .busy [0, 0]))
          ∧ (∀ d, (s.sweep i).state = .idle → (s.sweep i).defn = some d →
              ∃ (timer : Option Time) (mark : Bool), exec .sweepArm s = .next (State.reply
                  { s with
                    hand := { s.hand with sweepEngine := rest }
                    sweeps := s.sweeps.set i { s.sweep i with
                      state := .armed, sinceArm := 0, missed := 0, timer := timer, armExpiry := mark } }
                  r.ref .ok [byteOf i.val, 2])
                ∧ (∀ period phase, d.source = .period period phase →
                    timer = some (s.time + BitVec.ofNat 32 (1000 * phase.toNat)))
                ∧ (∀ j, d.source = .host ∨ d.source = .chain j → timer = none)
                ∧ (mark = true ↔ ∃ period, d.source = .period period 0))))

/-- R31, R32, R33, R42: what a trigger does to the sweep it reaches; nothing in EMPTY, IDLE and STOPPING.

R34: SWEEP_FIRE by sweep number and state; on an ARMED or RUNNING sweep it is a trigger, and the reply tells what the
trigger did.

`armExpiry` is the model's mark of a first expiry still to be taken (log 9). -/
def Obligations.TriggersAndFire : Prop :=
  (∀ (s : State) (i : SweepNo),
      (s.sweep i).state = .empty ∨ (s.sweep i).state = .idle ∨ (s.sweep i).state = .stopping → s.trigger i = s)
  ∧ (∀ (s : State) (i : SweepNo) (d : SweepDef), (s.sweep i).defn = some d →
      ((s.sweep i).state = .armed → (s.sweep i).started ≠ 0xFFFFFFFF → s.trigger i = s.startPass i d)
      ∧ ((s.sweep i).state = .running → d.overrun = .restart → (s.sweep i).started ≠ 0xFFFFFFFF →
          s.trigger i = s.abandonPass i d)
      ∧ ((s.sweep i).state = .running → d.overrun = .skip ∨ (s.sweep i).started = 0xFFFFFFFF →
          s.trigger i = { s with sweeps := s.sweeps.set i { s.sweep i with missed := min 65535 ((s.sweep i).missed + 1) } })
      ∧ ((s.sweep i).state = .armed → (s.sweep i).started = 0xFFFFFFFF →
          s.trigger i = State.leaveNotice { s with sweeps := s.sweeps.set i { s.sweep i with
            missed := min 65535 ((s.sweep i).missed + 1), state := .idle, timer := none, armExpiry := false } } i))
  ∧ (∀ (s : State) (r : Request) (rest : List Request), s.hand.sweepEngine = r :: rest → r.kind = .sweepFire →
      (7 < readNat r.payload 0 → exec .sweepFire s = .next (State.reply
        { s with hand := { s.hand with sweepEngine := rest } } r.ref .badArg [readByte r.payload 0, 0, 0, 0, 0, 0]))
      ∧ (∀ i : SweepNo, readNat r.payload 0 = i.val → (s.sweep i).armExpiry = false →
          ((s.sweep i).state = .empty → exec .sweepFire s = .next (State.reply
            { s with hand := { s.hand with sweepEngine := rest } } r.ref .noSweep [byteOf i.val, 0, 0, 0, 0, 0]))
          ∧ ((s.sweep i).state = .idle ∨ (s.sweep i).state = .stopping → exec .sweepFire s = .next (State.reply
            { s with hand := { s.hand with sweepEngine := rest } } r.ref .notArmed [byteOf i.val, 0, 0, 0, 0, 0]))
          ∧ (∀ (d : SweepDef) (t : State), t = { s with hand := { s.hand with sweepEngine := rest } } →
              (s.sweep i).defn = some d →
              ((s.sweep i).state = .armed → (s.sweep i).started ≠ 0xFFFFFFFF → exec .sweepFire s = .next
                ((t.startPass i d).reply r.ref .ok ([byteOf i.val, 1] ++ be32 ((s.sweep i).started + 1))))
              ∧ ((s.sweep i).state = .armed → (s.sweep i).started = 0xFFFFFFFF → exec .sweepFire s = .next (State.reply
                  (State.leaveNotice { t with sweeps := s.sweeps.set i { s.sweep i with
                    missed := min 65535 ((s.sweep i).missed + 1), state := .idle, timer := none, armExpiry := false } } i)
                  r.ref .ok [byteOf i.val, 3, 0, 0, 0, 0]))
              ∧ ((s.sweep i).state = .running → d.overrun = .restart → (s.sweep i).started ≠ 0xFFFFFFFF →
                  exec .sweepFire s = .next
                    ((t.abandonPass i d).reply r.ref .ok ([byteOf i.val, 2] ++ be32 ((s.sweep i).started + 1))))
              ∧ ((s.sweep i).state = .running → d.overrun = .skip ∨ (s.sweep i).started = 0xFFFFFFFF →
                  exec .sweepFire s = .next (State.reply
                    { t with sweeps := s.sweeps.set i { s.sweep i with missed := min 65535 ((s.sweep i).missed + 1) } }
                    r.ref .ok ([byteOf i.val, 3] ++ be32 (s.sweep i).started))))))

/-- R28, R152: PERIOD_EXPIRY, at its time, sets the timer for the previous expiry plus the period and is a trigger.

R27: a first expiry that falls at the arm and is still to be taken is taken before any SWEEP request for the sweep (the
model's reading, log 9). -/
def Obligations.PeriodExpiryTriggers : Prop :=
  (∀ (s : State) (i : SweepNo) (d : SweepDef) (period phase : Half), (s.sweep i).timer = some s.time →
    (s.sweep i).defn = some d → d.source = .period period phase →
    exec (.periodExpiry i) s = .next (State.trigger
      { s with sweeps := s.sweeps.set i { s.sweep i with
          timer := some (s.time + BitVec.ofNat 32 (1000 * period.toNat)), armExpiry := false } } i))
  ∧ (∀ (s u : State) (r : Request) (rest : List Request) (i : SweepNo) (c : Instr), s.hand.sweepEngine = r :: rest →
    readNat r.payload 0 = i.val → (s.sweep i).armExpiry = true → (s.sweep i).timer = some s.time →
    (c, r.kind) ∈ [(Instr.sweepSet, ReqKind.sweepSet), (.sweepClear, .sweepClear), (.sweepArm, .sweepArm),
                   (.sweepFire, .sweepFire), (.sweepStop, .sweepStop), (.sweepGet, .sweepGet)] →
    exec (.periodExpiry i) s = .next u → exec c s = exec c u)

/-- R47, R48, R71: the start of a pass, as the whole next state: the next pass number, the start time, RUNNING, every
position PENDING, the work page prepared and the published page untouched; and one request for each position, in list
order, at the arbiter that the definition copy names. Nothing else changes. `issued` are the requests for one resource. -/
def Obligations.PassStarts : Prop :=
  ∀ (s : State) (i : SweepNo) (d : SweepDef) (work : Page) (pages : Pages) (issued : Resource → List ProbeRequest),
    d.list.length ≤ 16 →
    work = { pass := (s.sweep i).started + 1, start := s.time, publish := 0, faults := 0,
             records := Vector.ofFn fun k : Fin 16 =>
               match d.list[k.val]? with
               | some slot => { slot := slot, status := .pending, attempts := 0, data := [], time := 0 }
               | none => { slot := 0, status := .none, attempts := 0, data := [], time := 0 } } →
    pages = (if (s.pagesOf i).publishedB
      then { a := work, b := (s.pagesOf i).b, publishedB := true, workUsed := true }
      else { a := (s.pagesOf i).a, b := work, publishedB := false, workUsed := true }) →
    (∀ r, issued r = (List.finRange 16).filterMap (fun k =>
          match d.list[k.val]? with
          | none => none
          | some slot =>
            match (s.slot slot).record with
            | none => none
            | some copy =>
              if copy.resource = r then
                some { sweep := i, position := k, pass := (s.sweep i).started + 1, slot := slot, copy := copy,
                       priority := d.priority }
              else none)) →
    s.startPass i d = { s with
      sweeps := s.sweeps.set i { s.sweep i with
        state := .running, started := (s.sweep i).started + 1,
        run := some { start := s.time, positions := List.replicate d.list.length .pending } }
      pages := s.pages.set i pages
      ports := Vector.ofFn fun p => { s.port p with
        arb := { (s.port p).arb with issues := (s.port p).arb.issues ++ issued (.tw p) } }
      conv := { s.conv with arb := { s.conv.arb with issues := s.conv.arb.issues ++ issued .analog } } }

/-- R59, Table 3-3: an abandonment, as the whole next state: the next pass number, RUNNING, DEFERRED for the positions whose
request no arbiter removed, PENDING for the others with a new request for each, in list order; every port and the converter
as the withdrawal leaves them (WithdrawalAndHalt), which has taken all that was issued before it (log 5); timer, counters,
published page, waiters and all else as they stood.

That a DEFERRED position whose request is removed becomes PENDING is the model's reading (log 6). -/
def Obligations.PassAbandoned : Prop :=
  ∀ (s : State) (i : SweepNo) (d : SweepDef) (work : Page) (pages : Pages) (issued : Resource → List ProbeRequest),
    d.list.length ≤ 16 →
    work = { pass := (s.sweep i).started + 1, start := s.time, publish := 0, faults := 0,
             records := Vector.ofFn fun k : Fin 16 =>
               match d.list[k.val]? with
               | some slot => { slot := slot, status := .pending, attempts := 0, data := [], time := 0 }
               | none => { slot := 0, status := .none, attempts := 0, data := [], time := 0 } } →
    pages = (if (s.pagesOf i).publishedB
      then { a := work, b := (s.pagesOf i).b, publishedB := true, workUsed := true }
      else { a := (s.pagesOf i).a, b := work, publishedB := false, workUsed := true }) →
    (∀ r, issued r = (List.finRange 16).filterMap (fun k =>
        if (s.sweep i).positions[k.val]? = some .complete ∨ k ∈ s.withdrawn i then
          match d.list[k.val]? with
          | none => none
          | some slot =>
            match (s.slot slot).record with
            | none => none
            | some copy =>
              if copy.resource = r then
                some { sweep := i, position := k, pass := (s.sweep i).started + 1, slot := slot, copy := copy,
                       priority := d.priority }
              else none
        else none)) →
    s.abandonPass i d = { s with
      sweeps := s.sweeps.set i { s.sweep i with
        state := .running, started := (s.sweep i).started + 1,
        run := some
          { start := s.time
            positions := d.positions.map fun k =>
              if (s.sweep i).positions[k.val]? = some .complete ∨ k ∈ s.withdrawn i then .pending else .deferred } }
      pages := s.pages.set i pages
      ports := Vector.ofFn fun p => { (s.withdraw i).port p with
        arb := { ((s.withdraw i).port p).arb with issues := issued (.tw p) } }
      conv := { (s.withdraw i).conv with arb := { (s.withdraw i).conv.arb with issues := issued .analog } } }

/-- R94, R115, R132: a withdrawal leaves no pending and no settling request of the sweep, and keeps the granted entries,
the direct transfers, the completions already handed on and every other sweep's entries; its answer names the positions of
what it removed. What was issued to the arbiter before is taken first, in order, each request as ARBITER_TAKES_ISSUE takes
it (log 5).

R55, R56: a halt: the work page is discarded, the sweep's pending and settling requests are withdrawn, the requests
still outstanding are the remnants, the waiters are answered NO_PASS, and then the HALT event is offered.
 -/
def Obligations.WithdrawalAndHalt : Prop :=
  (∀ (s : State) (i : SweepNo) (p : PortNo) (q : Port) (c : Converter), q = (s.port p).takeIssues s.time →
      c = s.conv.takeIssues →
      (s.withdraw i).port p =
        { q with
          arb := { q.arb with pending := q.arb.pending.filter (fun e => decide (e.req.sweep ≠ i)) }
          settling := q.settling.filter (fun m => decide (m.entry.req.sweep ≠ i)) }
      ∧ (s.withdraw i).conv = { c with arb := { c.arb with
          pending := c.arb.pending.filter (fun e => decide (e.req.sweep ≠ i)) } }
      ∧ (∀ k, k ∈ (s.port p).withdrawn s.time i ↔
          (∃ e, e ∈ q.arb.pending ∧ e.req.sweep = i ∧ e.req.position = k)
          ∨ (∃ m, m ∈ q.settling ∧ m.entry.req.sweep = i ∧ m.entry.req.position = k))
      ∧ (∀ k, k ∈ s.conv.withdrawn i ↔ ∃ e, e ∈ c.arb.pending ∧ e.req.sweep = i ∧ e.req.position = k)
      ∧ ((s.port p).arb.issues = [] → q = s.port p) ∧ (s.conv.arb.issues = [] → c = s.conv)
      ∧ q.arb.issues = [] ∧ c.arb.issues = [])
  ∧ (∀ (s u : State) (p : PortNo), (s.port p).arb.issues ≠ [] → exec (.arbiterTakesIssue (.tw p)) s = .next u →
      (s.port p).takeIssues s.time = (u.port p).takeIssues u.time)
  ∧ (∀ s u : State, s.conv.arb.issues ≠ [] → exec (.arbiterTakesIssue .analog) s = .next u →
      s.conv.takeIssues = u.conv.takeIssues)
  ∧ (∀ (s : State) (i : SweepNo) (d : SweepDef) (c : Completion) (n : Nat) (u : State),
      n = d.positions.countP (fun k =>
        decide ((s.sweep i).positions[k.val]? ≠ some .complete ∧ k ≠ c.req.position ∧ k ∉ s.withdrawn i)) →
      (∀ k, k ∈ d.positions → k.val < (s.sweep i).positions.length) →
      u = State.leaveNotice (((s.setPages i { s.pagesOf i with workUsed := false }).withdraw i).setSweep i { s.sweep i with
        run := none, remnant := n, state := (if n = 0 then .idle else .stopping), timer := none, armExpiry := false }) i →
      s.haltPass i d c = u.offerEvent .halt (byteOf i.val :: (be32 (s.sweep i).started
          ++ [byteOf c.req.position.val, byteOf c.req.slot.val, c.status.code])))

/-- R38, R39, R40: SWEEP_STOP by sweep number and state.

`armExpiry` is the model's mark of a first expiry still to be taken (log 9). -/
def Obligations.SweepStopCases : Prop :=
  ∀ (s : State) (r : Request) (rest : List Request) (t : State), s.hand.sweepEngine = r :: rest → r.kind = .sweepStop →
    t = { s with hand := { s.hand with sweepEngine := rest } } →
    (7 < readNat r.payload 0 → exec .sweepStop s = .next (t.reply r.ref .badArg [readByte r.payload 0, 0]))
    ∧ (∀ i : SweepNo, readNat r.payload 0 = i.val → (s.sweep i).armExpiry = false →
        ((s.sweep i).state = .empty → exec .sweepStop s = .next (t.reply r.ref .noSweep [byteOf i.val, 0]))
        ∧ ((s.sweep i).state = .idle → exec .sweepStop s = .next (t.reply r.ref .ok [byteOf i.val, 1]))
        ∧ ((s.sweep i).state = .armed → exec .sweepStop s = .next (State.reply
            (State.leaveNotice { t with sweeps := s.sweeps.set i { s.sweep i with
              state := .idle, timer := none, armExpiry := false } } i) r.ref .ok [byteOf i.val, 1]))
        ∧ ((s.sweep i).state = .stopping → exec .sweepStop s = .next
            { t with sweeps := s.sweeps.set i { s.sweep i with held := (s.sweep i).held ++ [r.ref] } })
        ∧ (∀ (d : SweepDef) (n : Nat) (u : State), (s.sweep i).state = .running → (s.sweep i).defn = some d →
            n = d.positions.countP (fun k =>
              decide ((s.sweep i).positions[k.val]? ≠ some .complete ∧ k ∉ t.withdrawn i)) →
            u = State.leaveNotice ((t.setPages i (t.pagesOf i).discard).withdraw i |>.setSweep i { s.sweep i with
                run := none, remnant := n, state := (if n = 0 then .idle else .stopping), timer := none, armExpiry := false }) i →
            exec .sweepStop s = .next (if n = 0 then u.reply r.ref .ok [byteOf i.val, 1]
              else u.setSweep i { u.sweep i with held := (s.sweep i).held ++ [r.ref] })))

/-! ### Result Store -/

/-- R75, Table 4-3: which RESULT.FETCH payloads are valid, and what a valid one asks for: sweep, first position, count and
mode a byte each, then pass and wait limit.

R75, R77, R79, R80: RESULT_FETCH refused BAD_ARG, LATEST, and EXACT: answered at once from the published page.

R81, R82, R86: NEWER, in the order of its four steps; an orphaned fetch that would wait is dropped. -/
def Obligations.FetchCases : Prop :=
  (∀ (sweep first count mode : Byte) (pass : Word) (wait : Half) (f : Fetch),
      readFetch ([sweep, first, count, mode] ++ be32 pass ++ be16 wait) = some f ↔
        sweep.toNat = f.sweep.val ∧ first.toNat = f.first ∧ count.toNat = f.count
        ∧ f.first ≤ 15 ∧ 1 ≤ f.count ∧ f.count ≤ 16 ∧ f.first + f.count ≤ 16
        ∧ ((mode = 0 ∧ f.mode = .latest ∧ pass = 0 ∧ wait = 0)
          ∨ (mode = 1 ∧ f.mode = .exact pass ∧ wait = 0)
          ∨ (mode = 2 ∧ f.mode = .newer pass wait ∧ 1 ≤ wait.toNat ∧ wait.toNat ≤ 60000)))
  ∧ (∀ (s : State) (r : Request) (rest : List Request) (t : State), s.hand.resultStore = r :: rest → r.kind = .resultFetch →
      t = { s with hand := { s.hand with resultStore := rest } } →
      (readFetch r.payload = none → exec .resultFetch s = .next
        (t.reply r.ref .badArg [readByte r.payload 0, 0, 0, 0, 0, 0, 0, 0, 0, 0]))
      ∧ (∀ (i : SweepNo) (first count : Nat) (g : Page), g = (s.pagesOf i).published →
          (readFetch r.payload = some { sweep := i, first := first, count := count, mode := .latest } →
            exec .resultFetch s = .next (t.reply r.ref .ok (fetchItems i g first count)))
          ∧ (∀ n, readFetch r.payload = some { sweep := i, first := first, count := count, mode := .exact n } →
              (g.pass = n → exec .resultFetch s = .next (t.reply r.ref .ok (fetchItems i g first count)))
              ∧ (g.pass ≠ n → exec .resultFetch s = .next (t.reply r.ref .stale
                  ([byteOf i.val, 0] ++ be32 g.pass ++ be32 g.start))))))
  ∧ (∀ (s : State) (r : Request) (rest : List Request) (t : State) (i : SweepNo) (first count : Nat) (n : Word) (w : Half)
      (g : Page), s.hand.resultStore = r :: rest → r.kind = .resultFetch →
      t = { s with hand := { s.hand with resultStore := rest } } → g = (s.pagesOf i).published →
      readFetch r.payload = some { sweep := i, first := first, count := count, mode := .newer n w } →
      (n.toNat < g.pass.toNat → exec .resultFetch s = .next (t.reply r.ref .ok (fetchItems i g first count)))
      ∧ (g.pass.toNat ≤ n.toNat → (s.sweep i).state.triggerable = false → exec .resultFetch s = .next
          (t.reply r.ref .noPass ([byteOf i.val, 0] ++ be32 g.pass ++ be32 g.start)))
      ∧ (g.pass.toNat ≤ n.toNat → (s.sweep i).state.triggerable = true →
          (4 ≤ s.waiters.length → exec .resultFetch s = .next
            (t.reply r.ref .waitersFull ([byteOf i.val, 0] ++ be32 g.pass ++ be32 g.start)))
          ∧ (s.waiters.length < 4 → r.ref ∈ s.link.accepted → exec .resultFetch s = .next { t with
              waiters := s.waiters ++ [{ ref := r.ref, sweep := i, passHeld := n, first := first, count := count,
                                         deadline := s.time + BitVec.ofNat 32 (1000 * w.toNat) }] })
          ∧ (∀ before after, s.waiters.length < 4 → (∀ q, q ∈ s.link.accepted → q.id ≠ r.ref.id) →
              s.link.orphans = before ++ r.ref :: after → (∀ q, q ∈ before → q.id ≠ r.ref.id) →
              exec .resultFetch s = .next { t with link := { s.link with orphans := before ++ after } })))

/-- R78, R186: a reply holds the records from `first`, in order, as many as the greatest number up to `count` that fits
whole; so the first that does not fit ends it, its payload never exceeds 120 bytes, and the first record, whose data is at
most 8 bytes, is always included.

R186, Table 11-8: the bytes of a record, with the status codes of Table 11-2. -/
def Obligations.FetchPacksWholeRecords : Prop :=
  (∀ (i : SweepNo) (g : Page) (first count : Nat), first + count ≤ 16 →
    ∃ m, m ≤ count
      ∧ fetchItems i g first count = [byteOf i.val, byteOf m] ++ be32 g.pass ++ be32 g.start
          ++ (List.range m).flatMap (fun k => ((g.records.toList[first + k]?).map (fun r => r.bytes (first + k))).getD [])
      ∧ (fetchItems i g first count).length + 2 ≤ 120
      ∧ (∀ r, m < count → g.records.toList[first + m]? = some r →
          120 < (fetchItems i g first count).length + 2 + (r.bytes (first + m)).length)
      ∧ (∀ r, 1 ≤ count → g.records.toList[first]? = some r → r.data.length ≤ 8 → 1 ≤ m))
  ∧ (∀ (r : Record) (k : Nat), k ≤ 15 → r.attempts ≤ 4 → r.data.length ≤ 8 →
      r.bytes k = [BitVec.ofNat 8 k, BitVec.ofNat 8 r.slot.val, r.status.code,
          BitVec.ofNat 4 r.attempts ++ BitVec.ofNat 4 r.data.length,
          r.time.extractLsb' 24 8, r.time.extractLsb' 16 8, r.time.extractLsb' 8 8, r.time.extractLsb' 0 8] ++ r.data)
  ∧ [RecStatus.none, .pending, .ended .done, .ended .addrNak, .ended .dataNak, .ended .stretchTimeout, .ended .contention,
      .ended .portBlocked].map RecStatus.code = [0xFF, 0xFE, 0x00, 0x11, 0x12, 0x13, 0x14, 0x0A]

/-- R84: WAIT_EXPIRY, at the deadline, answers the waiter TIMEOUT with the published page's numbers, and it leaves.

R85: a leave notice takes every waiter on the sweep and no other off the list, in join order, each answered NO_PASS. -/
def Obligations.WaitersLeave : Prop :=
  (∀ (s : State) (k : Nat) (w : Waiter), s.waiters[k]? = some w → w.deadline = s.time →
      exec (.waitExpiry k) s = .next (State.reply { s with waiters := s.waiters.eraseIdx k } w.ref .timeout
        ([byteOf w.sweep.val, 0] ++ be32 (s.pagesOf w.sweep).published.pass ++ be32 (s.pagesOf w.sweep).published.start)))
  ∧ (∀ (s : State) (i : SweepNo),
      s.leaveNotice i = { s with
        waiters := s.waiters.filter (fun w => decide (w.sweep ≠ i))
        link := (s.waiters.filter (fun w => decide (w.sweep = i))).foldl (fun l w => l.reply w.ref
          ([0x0D, byteOf i.val, 0] ++ be32 (s.pagesOf i).published.pass ++ be32 (s.pagesOf i).published.start)) s.link })

/-! ### Completions and publication -/

/-- R63, R64, R65, R66, R70, R74, R83: the publication of a full page, in its order: the pages exchange roles with the
publish time and the fault count written, the counters move, the satisfied waiters are answered, the PASS event is
offered, the next state is set, and the chain triggers are taken in ascending order.

`publishedB` and `workUsed` are the model's account of the two pages (log 13), `armExpiry` its mark of a first expiry (log 9). -/
def Obligations.PublicationInOrder : Prop :=
  ∀ (s : State) (i : SweepNo) (d : SweepDef) (a b e f : State) (g : Page) (w : Sweep),
    g = { (s.pagesOf i).work with
          publish := s.time
          faults := (s.pagesOf i).work.records.toList.countP
            (fun r => decide (r.status ≠ .none ∧ r.status ≠ .ended .done)) } →
    w = { s.sweep i with sinceArm := (s.sweep i).sinceArm + 1, published := (s.sweep i).started, run := none } →
    a.pages = s.pages.set i (if (s.pagesOf i).publishedB
      then { a := g, b := (s.pagesOf i).b, publishedB := false, workUsed := false }
      else { a := (s.pagesOf i).a, b := g, publishedB := true, workUsed := false }) →
    a = { s with pages := a.pages, sweeps := s.sweeps.set i w } →
    b = { a with
      waiters := s.waiters.filter (fun v => decide (¬ (v.sweep = i ∧ v.passHeld < g.pass)))
      link := (s.waiters.filter (fun v => decide (v.sweep = i ∧ v.passHeld < g.pass))).foldl
        (fun l v => l.reply v.ref (0x00 :: fetchItems i g v.first v.count)) s.link } →
    e = (if d.notify then b.offerEvent .pass (byteOf i.val :: (be32 g.pass ++ be32 g.start ++ be32 s.time ++ [byteOf g.faults]
      ++ be32 w.sinceArm ++ be16 (BitVec.ofNat 16 w.missed))) else b) →
    f = (if d.passLimit ≠ 0 ∧ w.sinceArm.toNat = d.passLimit.toNat
      then State.leaveNotice { e with sweeps := e.sweeps.set i { w with state := .idle, timer := none, armExpiry := false } } i
      else { e with sweeps := e.sweeps.set i { w with state := .armed } }) →
    s.publish i d = ((List.finRange 8).filter (fun j =>
      match (f.sweep j).defn with
      | none => false
      | some chained => chained.source == .chain i)).foldl (fun u j => u.trigger j) f

/-- R49 to R56, R40: COMPLETION takes the first completion of an arbiter, sends its copy to the Watch Unit, and handles it
by the sweep's state and the position's state (Table 3-2).

R51, R134: the Watch Unit takes the copy as it is sent, after what reached it before, or later: that is free, and asked anew
for each completion; that no third moment is modelled is the model's choice (log 25). -/
def Obligations.CompletionHandled : Prop :=
  ∀ (s : State) (r : Resource) (c : Completion) (rest : List Completion) (i : SweepNo) (k : Fin 16) (t : State),
    (s.arb r).done = c :: rest → i = c.req.sweep → k = c.req.position →
    (∃ u : State, u = { s.setArb r { s.arb r with done := rest } with
        inbox := s.inbox ++ [.copy c], free := s.free + 1 }
      ∧ t = if Config.copyAtOnce s.free then u.takeInbox else u) →
    (∀ (d : SweepDef) (p : RunningPass), (s.sweep i).state = .running → (s.sweep i).defn = some d →
      (s.sweep i).run = some p →
      (p.positions[k.val]? = some .pending → c.status = .done ∨ d.faultPolicy = .continue →
        (∀ u : State, u = { t with
            pages := s.pages.set i ((s.pagesOf i).setWork { (s.pagesOf i).work with
              records := (s.pagesOf i).work.records.set k
                { slot := ((s.pagesOf i).work.records[k]).slot, status := .ended c.status, attempts := c.attempts,
                  data := c.data, time := c.time } })
            sweeps := s.sweeps.set i { s.sweep i with
              run := some { p with positions := p.positions.set k.val .complete } } } →
          exec (.completion r) s = .next
            (if (p.positions.set k.val .complete).all (· == .complete) then u.publish i d else u)))
      ∧ (p.positions[k.val]? = some .pending → c.status ≠ .done → d.faultPolicy = .halt →
          exec (.completion r) s = .next (t.haltPass i d c))
      ∧ (p.positions[k.val]? = some .deferred →
          exec (.completion r) s = .next (State.issue { t with
            sweeps := s.sweeps.set i { s.sweep i with
              run := some { p with positions := p.positions.set k.val .pending } } } i d k)))
    ∧ ((s.sweep i).state = .stopping → 1 < (s.sweep i).remnant → exec (.completion r) s = .next
        { t with sweeps := s.sweeps.set i { s.sweep i with remnant := (s.sweep i).remnant - 1 } })
    ∧ ((s.sweep i).state = .stopping → (s.sweep i).remnant = 1 → exec (.completion r) s = .next
        ((s.sweep i).held.foldl (fun u ref => u.reply ref .ok [byteOf i.val, 1])
          { t with sweeps := s.sweeps.set i { s.sweep i with remnant := 0, state := .idle, held := [] } }))

/-! ### Arbiters -/

/-- R88, R89: ARBITER_TAKES_ISSUE places the request with a new age, or completes it PORT_BLOCKED at a BLOCKED or CLEARING
port.

R90, R118: HOST_ENTRY_ARRIVAL places the transfer with a new age, refuses the ninth BUSY, or answers PORT_BLOCKED. -/
def Obligations.ArrivalsTaken : Prop :=
  (∀ (s : State) (q : ProbeRequest) (rest : List ProbeRequest),
      (∀ p : PortNo, (s.port p).arb.issues = q :: rest →
        ((s.port p).state = .idle ∨ (s.port p).state = .active → exec (.arbiterTakesIssue (.tw p)) s = .next
          { s with ports := s.ports.set p { s.port p with arb := { (s.port p).arb with
              issues := rest, age := (s.port p).arb.age + 1,
              pending := (s.port p).arb.pending ++ [{ req := q, age := (s.port p).arb.age + 1, preludeDone := false }] } } })
        ∧ ((s.port p).state = .blocked ∨ (s.port p).state = .clearing → exec (.arbiterTakesIssue (.tw p)) s = .next
          { s with ports := s.ports.set p { s.port p with arb := { (s.port p).arb with
              issues := rest,
              done := (s.port p).arb.done
                ++ [{ req := q, status := .portBlocked, data := [], attempts := 0, time := s.time }] } } }))
      ∧ (s.conv.arb.issues = q :: rest → exec (.arbiterTakesIssue .analog) s = .next
          { s with conv := { s.conv with arb := { s.conv.arb with
              issues := rest, age := s.conv.arb.age + 1,
              pending := s.conv.arb.pending ++ [{ req := q, age := s.conv.arb.age + 1, preludeDone := false }] } } }))
  ∧ (∀ (s : State) (p : PortNo) (x : Transfer) (rest : List Transfer), (s.port p).arrivals = x :: rest →
      ((s.port p).state = .idle ∨ (s.port p).state = .active →
        ((s.port p).transfers.length < 8 → exec (.hostEntryArrival p) s = .next
          { s with ports := s.ports.set p { s.port p with
              arrivals := rest, transfers := (s.port p).transfers ++ [{ xfer := x, age := (s.port p).arb.age + 1 }],
              arb := { (s.port p).arb with age := (s.port p).arb.age + 1 } } })
        ∧ (8 ≤ (s.port p).transfers.length → exec (.hostEntryArrival p) s = .next (State.reply
            { s with ports := s.ports.set p { s.port p with arrivals := rest } } x.ref .busy [byteOf p.val, 0, 0, 0, 0, 0])))
      ∧ ((s.port p).state = .blocked ∨ (s.port p).state = .clearing → exec (.hostEntryArrival p) s = .next (State.reply
          { s with ports := s.ports.set p { s.port p with arrivals := rest } } x.ref .portBlocked
          ([byteOf p.val, 0] ++ be32 s.time))))

/-- R91, R106, Table 5-2: a due grant at a port takes the oldest direct transfer, or, with none pending, the oldest of the
probe requests of the highest priority; it leaves the collection and is performed from the first phase it still needs.

R91, R125, R128: a due grant at the converter; it wakes an OFF converter and cancels the idle timer. -/
def Obligations.GrantsInOrder : Prop :=
  (∀ (s : State) (p : PortNo), (s.port p).granted = none → (s.port p).state ≠ .blocked →
      ((s.port p).transfers ≠ [] → ∃ x, x ∈ (s.port p).transfers ∧ (∀ y, y ∈ (s.port p).transfers → x.age ≤ y.age)
        ∧ exec (.grant (.tw p)) s = .next { s with ports := s.ports.set p { s.port p with
            transfers := (s.port p).transfers.erase x, state := .active,
            granted := some { work := .transfer x, config := (s.port p).config } } })
      ∧ ((s.port p).transfers = [] → (s.port p).arb.pending ≠ [] → ∃ x phase, x ∈ (s.port p).arb.pending
        ∧ (∀ y, y ∈ (s.port p).arb.pending → y.req.priority ≤ x.req.priority)
        ∧ (∀ y, y ∈ (s.port p).arb.pending → y.req.priority = x.req.priority → x.age ≤ y.age)
        ∧ (∀ d, x.req.copy.body = .twoWire d →
            phase = if d.prelude = none ∨ x.preludeDone = true then .read else .prelude)
        ∧ exec (.grant (.tw p)) s = .next { s with ports := s.ports.set p { s.port p with
            arb := { (s.port p).arb with pending := (s.port p).arb.pending.erase x }, state := .active,
            granted := some { work := .probe x phase 1, config := (s.port p).config } } }))
  ∧ (∀ s : State, s.conv.granted = none → s.conv.arb.pending ≠ [] → ∃ x, x ∈ s.conv.arb.pending
      ∧ (∀ y, y ∈ s.conv.arb.pending → y.req.priority ≤ x.req.priority)
      ∧ (∀ y, y ∈ s.conv.arb.pending → y.req.priority = x.req.priority → x.age ≤ y.age)
      ∧ exec (.grant .analog) s = .next { s with conv := { s.conv with
          arb := { s.conv.arb with pending := s.conv.arb.pending.erase x },
          granted := some { entry := x, since := s.time, taken := 0, sum := 0 },
          power := if s.conv.power = .off then .waking else .converting, idleTimer := none } })

/-! ### Two-Wire Ports -/

/-- R92, R95, R99, R101, R114: the end of a grant, in its order: the entry is released and the port takes its new state; the
outcome is handed on; a port that has entered BLOCKED answers its pending entries, direct transfers first; a held
configuration is applied and its PORT.SET answered OK with it. `x` is the outcome.

R95, R118: a port that blocks empties its pending collection, as the whole next state: the direct transfers are answered
PORT_BLOCKED with no bytes and the time of the blocking, the oldest first (`xs`); every probe request completes PORT_BLOCKED
with attempts 0 at that time, and the completions are handed on by descending priority, the older age first within a
priority (`l`). The settling set and all else is left. -/
def Obligations.GrantEndsAndPortEmpties : Prop :=
  (∀ (s a b : State) (p : PortNo) (after : PortState) (x : State → State),
      a = { s with ports := s.ports.set p { s.port p with granted := none, stretch := none, state := after } } →
      b = (if after = .blocked then (x a).emptyPending p else x a) →
      ((b.port p).held = none → s.endGrant p after x = b)
      ∧ (∀ h, (b.port p).held = some h → s.endGrant p after x = State.reply
          { b with ports := b.ports.set p { b.port p with config := h.config, held := none } }
          h.ref .ok [byteOf p.val, h.config.rate.code, h.config.stretchMs]))
  ∧ (∀ (s : State) (p : PortNo), ∃ (xs : List TransferEntry) (l : List ProbeEntry),
      xs.Perm (s.port p).transfers ∧ xs.Pairwise (fun a b => a.age ≤ b.age)
      ∧ l.Perm (s.port p).arb.pending
      ∧ l.Pairwise (fun a b => b.req.priority < a.req.priority ∨ (b.req.priority = a.req.priority ∧ a.age ≤ b.age))
      ∧ s.emptyPending p = { s with
          ports := s.ports.set p { s.port p with
            transfers := [],
            arb := { (s.port p).arb with
              pending := [],
              done := (s.port p).arb.done
                ++ l.map (fun e => { req := e.req, status := .portBlocked, data := [], attempts := 0, time := s.time }) } }
          link := xs.foldl (fun m e => m.reply e.xfer.ref ([0x0A, byteOf p.val, 0] ++ be32 s.time)) s.link })

/-- R107, R93: END_OF_PRELUDE_PHASE: with settle time 0 the read phase begins within the grant; otherwise the grant ends
and the request enters the settling set with its age, until the settle time has passed.

R93: SETTLE_EXPIRY, at its time: the request rejoins the pending collection with its age, or completes PORT_BLOCKED. -/
def Obligations.PreludeAndSettle : Prop :=
  (∀ (s : State) (p : PortNo) (g : PortGrant) (e : ProbeEntry) (n : Nat) (d : TwoWire) (pre : Prelude),
      (s.port p).granted = some g → (s.port p).stretch = none → g.work = .probe e .prelude n → e.req.copy.body = .twoWire d →
      d.prelude = some pre →
      (pre.settle = 0 → exec (.endOfPreludePhase p) s = .next
        { s with ports := s.ports.set p { s.port p with granted := some { g with work := .probe e .read 1 } } })
      ∧ (pre.settle ≠ 0 → exec (.endOfPreludePhase p) s = .next (s.endGrant p .idle fun t =>
          { t with ports := t.ports.set p { t.port p with
              settling := (t.port p).settling ++ [{ entry := { e with preludeDone := true },
                                                    expiry := t.time + BitVec.ofNat 32 (1000 * pre.settle.toNat) }] } })))
  ∧ (∀ (s : State) (p : PortNo) (k : Nat) (m : Settling), (s.port p).settling[k]? = some m → m.expiry = s.time →
      ((s.port p).state = .idle ∨ (s.port p).state = .active → exec (.settleExpiry p k) s = .next
        { s with ports := s.ports.set p { s.port p with
            settling := (s.port p).settling.eraseIdx k,
            arb := { (s.port p).arb with pending := (s.port p).arb.pending ++ [m.entry] } } })
      ∧ ((s.port p).state = .blocked ∨ (s.port p).state = .clearing → exec (.settleExpiry p k) s = .next
        { s with ports := s.ports.set p { s.port p with
            settling := (s.port p).settling.eraseIdx k,
            arb := { (s.port p).arb with done := (s.port p).arb.done
              ++ [{ req := m.entry.req, status := .portBlocked, data := [], attempts := 0, time := s.time }] } } }))

/-- R108, R109: READ_PHASE_END completes the request DONE with its bytes and the count of the attempt that succeeded.

R110, R111, R117: a refused address byte begins the next attempt of the phase while attempts remain, and otherwise ends
the request ADDR_NAK; a refused written byte ends it DATA_NAK at once; a direct transfer ends at its first refused byte. -/
def Obligations.ReadPhaseAndNaks : Prop :=
  (∀ (s : State) (p : PortNo) (g : PortGrant) (e : ProbeEntry) (n : Nat) (data : List Byte),
      (s.port p).granted = some g → (s.port p).stretch = none → g.work = .probe e .read n →
      data.length = e.req.copy.dataLength →
      exec (.readPhaseEnd p data) s = .next (s.endGrant p .idle fun t =>
        { t with ports := t.ports.set p { t.port p with arb := { (t.port p).arb with
            done := (t.port p).arb.done ++ [{ req := e.req, status := .done, data := data, attempts := n, time := t.time }] } } }))
  ∧ (∀ (s : State) (p : PortNo) (g : PortGrant) (k : Nat) (b : Byte), (s.port p).granted = some g → (s.port p).stretch = none →
      (∀ (e : ProbeEntry) (phase : Phase) (n : Nat) (d : TwoWire), g.work = .probe e phase n → e.req.copy.body = .twoWire d →
        ((phaseSequence d phase)[k]? = some (.address b) →
          (n < d.retries + 1 → exec (.addrNak p k) s = .next
            { s with ports := s.ports.set p { s.port p with granted := some { g with work := .probe e phase (n + 1) } } })
          ∧ (d.retries + 1 ≤ n → exec (.addrNak p k) s = .next (s.endGrant p .idle fun t =>
            { t with ports := t.ports.set p { t.port p with arb := { (t.port p).arb with
                done := (t.port p).arb.done
                  ++ [{ req := e.req, status := .addrNak, data := [], attempts := n, time := t.time }] } } })))
        ∧ ((phaseSequence d phase)[k]? = some (.write b) →
          exec (.dataNak p k) s = .next (s.endGrant p .idle fun t =>
            { t with ports := t.ports.set p { t.port p with arb := { (t.port p).arb with
                done := (t.port p).arb.done
                  ++ [{ req := e.req, status := .dataNak, data := [], attempts := n, time := t.time }] } } })))
      ∧ (∀ t : TransferEntry, g.work = .transfer t →
        ((busSequence t.xfer.mode t.xfer.addr t.xfer.write t.xfer.readLen)[k]? = some (.address b) →
          exec (.addrNak p k) s = .next (s.endGrant p .idle fun u =>
            u.reply t.xfer.ref .addrNak ([byteOf p.val, 0] ++ be32 u.time)))
        ∧ ((busSequence t.xfer.mode t.xfer.addr t.xfer.write t.xfer.readLen)[k]? = some (.write b) →
          exec (.dataNak p k) s = .next (s.endGrant p .idle fun u =>
            u.reply t.xfer.ref .dataNak ([byteOf p.val, 0] ++ be32 u.time)))))

/-- R112, R113, R114, R118, R120: CONTENTION, and STRETCH_TIMER_EXPIRY at its time, end a probe phase or a transfer with
their status, no data, the attempt count and the time; cause and time are recorded, and the port blocks. A clear whose
stretch expires ends STUCK. -/
def Obligations.BlockingFaultsBlock : Prop :=
  ∀ (s : State) (p : PortNo) (g : PortGrant), (s.port p).granted = some g →
    (∀ (e : ProbeEntry) (phase : Phase) (n : Nat) (fault : CompStatus → State → State), g.work = .probe e phase n →
      (∀ status t, fault status t = { t with ports := t.ports.set p { t.port p with arb := { (t.port p).arb with
        done := (t.port p).arb.done
          ++ [{ req := e.req, status := status, data := [], attempts := n, time := t.time }] } } }) →
      exec (.contention p) s = .next (State.endGrant
        { s with ports := s.ports.set p { s.port p with lastBlock := some (.contention, s.time) } }
        p .blocked (fault .contention))
      ∧ ((s.port p).stretch = some s.time → exec (.stretchTimerExpiry p) s = .next (State.endGrant
        { s with ports := s.ports.set p { s.port p with lastBlock := some (.stretchTimeout, s.time) } }
        p .blocked (fault .stretchTimeout))))
    ∧ (∀ t : TransferEntry, g.work = .transfer t →
      exec (.contention p) s = .next (State.endGrant
        { s with ports := s.ports.set p { s.port p with lastBlock := some (.contention, s.time) } }
        p .blocked fun u => u.reply t.xfer.ref .contention ([byteOf p.val, 0] ++ be32 u.time))
      ∧ ((s.port p).stretch = some s.time → exec (.stretchTimerExpiry p) s = .next (State.endGrant
        { s with ports := s.ports.set p { s.port p with lastBlock := some (.stretchTimeout, s.time) } }
        p .blocked fun u => u.reply t.xfer.ref .stretchTimeout ([byteOf p.val, 0] ++ be32 u.time))))
    ∧ (∀ (ref : ReqRef) (n : Nat), g.work = .clear ref n → (s.port p).stretch = some s.time →
      exec (.stretchTimerExpiry p) s = .next (s.endGrant p .blocked fun t =>
        t.reply ref .stuck [byteOf p.val, byteOf n]))

/-- R112: STRETCHING starts the stretch timer with the timeout in force at the grant; SCL_RISES cancels it.

R117, R118, R120: DIRECT_TRANSFER_END answers the transfer OK with its bytes; CLEAR_END answers OK and leaves the port
IDLE with both lines high, STUCK and BLOCKED otherwise, with the pulses made.

The pulses noted by STRETCHING in a clear are the model's (log 17). -/
def Obligations.StretchTransferClear : Prop :=
  (∀ (s : State) (p : PortNo) (g : PortGrant), (s.port p).granted = some g →
      ((s.port p).stretch = none → (∀ ref n, g.work ≠ .clear ref n) → ∀ k, exec (.stretching p k) s = .next
        { s with ports := s.ports.set p { s.port p with
            stretch := some (s.time + BitVec.ofNat 32 (1000 * g.config.stretchMs.toNat)) } })
      ∧ (∀ ref n k, (s.port p).stretch = none → g.work = .clear ref n → n ≤ k → k ≤ 9 → exec (.stretching p k) s = .next
        { s with ports := s.ports.set p { s.port p with
            granted := some { g with work := .clear ref k },
            stretch := some (s.time + BitVec.ofNat 32 (1000 * g.config.stretchMs.toNat)) } })
      ∧ exec (.sclRises p) s = .next { s with ports := s.ports.set p { s.port p with stretch := none } })
  ∧ (∀ (s : State) (p : PortNo) (g : PortGrant), (s.port p).granted = some g → (s.port p).stretch = none →
      (∀ (t : TransferEntry) (data : List Byte), g.work = .transfer t → data.length = t.xfer.readLen →
        exec (.directTransferEnd p data) s = .next (s.endGrant p .idle fun u =>
          u.reply t.xfer.ref .ok ([byteOf p.val, byteOf data.length] ++ data ++ be32 u.time)))
      ∧ (∀ (ref : ReqRef) (made pulses : Nat), g.work = .clear ref made → made ≤ pulses → pulses ≤ 9 →
        exec (.clearEnd p pulses true) s = .next (s.endGrant p .idle fun u => u.reply ref .ok [byteOf p.val, byteOf pulses])
        ∧ exec (.clearEnd p pulses false) s = .next
            (s.endGrant p .blocked fun u => u.reply ref .stuck [byteOf p.val, byteOf pulses])))

/-- R121: which PORT.SET payloads are valid, and the configuration a valid one gives: port, rate code (0 for 100 kbit/s, 1 for
400) and stretch timeout of 1 to 100 ms, a byte each.

R97, R98, R121: PORT_SET at a port: refused, applied at once without a granted entry, held with one, and replacing a held
configuration, whose PORT.SET is answered OK. -/
def Obligations.PortSetCases : Prop :=
  (∀ (port rate timeout : Byte) (c : PortConfig), readPortConfig [port, rate, timeout] = some c ↔
      ((rate = 0 ∧ c.rate = .r100) ∨ (rate = 1 ∧ c.rate = .r400)) ∧ c.stretchMs = timeout
        ∧ 1 ≤ timeout.toNat ∧ timeout.toNat ≤ 100)
  ∧ ∀ (s : State) (p : PortNo) (r : Request) (rest : List Request) (t : State), s.hand.tw[p] = r :: rest →
    r.kind = .portSet → t = { s with hand := { s.hand with tw := s.hand.tw.set p rest } } →
    (readPortConfig r.payload = none → exec (.portSet (.tw p)) s = .next (t.reply r.ref .badArg
      [byteOf p.val, (s.port p).config.rate.code, (s.port p).config.stretchMs]))
    ∧ (∀ c, readPortConfig r.payload = some c →
      ((s.port p).granted = none → exec (.portSet (.tw p)) s = .next (State.reply
        { t with ports := s.ports.set p { s.port p with config := c } } r.ref .ok
        [byteOf p.val, c.rate.code, c.stretchMs]))
      ∧ ((s.port p).granted ≠ none → (s.port p).held = none → exec (.portSet (.tw p)) s = .next
        { t with ports := s.ports.set p { s.port p with held := some { config := c, ref := r.ref } } })
      ∧ (∀ old, (s.port p).granted ≠ none → (s.port p).held = some old → exec (.portSet (.tw p)) s = .next (State.reply
        { t with ports := s.ports.set p { s.port p with held := some { config := c, ref := r.ref } } } old.ref .ok
        [byteOf p.val, (s.port p).config.rate.code, (s.port p).config.stretchMs])))

/-- R116: which PORT.XFER payloads are valid, and the transfer a valid one gives: port, address mode, target address (two
bytes), write length, read length, sixteen write byte places.

R90, R116, R119, R122: PORT_GET reports the port and changes nothing; PORT_XFER is refused BAD_ARG or handed to the arbiter;
PORT_CLEAR is granted on a BLOCKED port and answered NOT_BLOCKED otherwise, in either case after the transfers handed to the
arbiter before it, since the arbiter takes host entries in order (R90, log 8): each as HOST_ENTRY_ARRIVAL takes it.

R174, R116, R119, R121, R122: the Two-Wire Ports block answers BAD_ARG with the port number as given.

The zeros for rate and stretch timeout when no configuration is held are the model's choice (log 14). -/
def Obligations.PortRequestCases : Prop :=
  (∀ (port mode w n : Byte) (a : Half) (bytes : List Byte) (ref : ReqRef) (x : Transfer), bytes.length = 16 →
      (readTransfer ref ([port, mode] ++ be16 a ++ [w, n] ++ bytes) = some x ↔
        x.ref = ref ∧ ((mode = 7 ∧ x.mode = .seven ∧ a.toNat ≤ 127) ∨ (mode = 10 ∧ x.mode = .ten ∧ a.toNat ≤ 1023))
        ∧ x.addr.toNat = a.toNat ∧ w.toNat ≤ 16 ∧ n.toNat ≤ 16 ∧ ¬ (w = 0 ∧ n = 0)
        ∧ x.write = bytes.take w.toNat ∧ x.readLen = n.toNat ∧ (∀ b, b ∈ bytes.drop w.toNat → b = 0)))
  ∧ (∀ (s : State) (p : PortNo) (r : Request) (rest : List Request) (t : State), s.hand.tw[p] = r :: rest →
      t = { s with hand := { s.hand with tw := s.hand.tw.set p rest } } →
      (r.kind = .portGet → exec (.portGet (.tw p)) s = .next (t.reply r.ref .ok
        ([byteOf p.val, (s.port p).state.code, (s.port p).config.rate.code, (s.port p).config.stretchMs]
          ++ (match (s.port p).held with
              | none => [0, 0, 0]
              | some h => [1, h.config.rate.code, h.config.stretchMs])
          ++ [byteOf ((s.port p).arb.pending.length + (s.port p).transfers.length), byteOf (s.port p).settling.length]
          ++ (match (s.port p).lastBlock with
              | none => [0xFF, 0, 0, 0, 0]
              | some (.stretchTimeout, time) => 0x13 :: be32 time
              | some (.contention, time) => 0x14 :: be32 time))))
      ∧ (r.kind = .portXfer →
        (readTransfer r.ref r.payload = none → exec (.portXfer (.tw p)) s = .next
          (t.reply r.ref .badArg [byteOf p.val, 0, 0, 0, 0, 0]))
        ∧ (∀ x, readTransfer r.ref r.payload = some x → exec (.portXfer (.tw p)) s = .next
          { t with ports := s.ports.set p { s.port p with arrivals := (s.port p).arrivals ++ [x] } }))
      ∧ (r.kind = .portClear →
        ((s.port p).state ≠ .blocked → exec (.portClear (.tw p)) s = .next
          ((t.takeArrivals p).reply r.ref .notBlocked [byteOf p.val, 0]))
        ∧ ((s.port p).state = .blocked → exec (.portClear (.tw p)) s = .next
          ((s.port p).arrivals.foldl (fun u x => u.reply x.ref .portBlocked ([byteOf p.val, 0] ++ be32 s.time))
            { t with ports := s.ports.set p { s.port p with
                arrivals := [], state := .clearing,
                granted := some { work := .clear r.ref 0, config := (s.port p).config } } }))))
  ∧ (∀ (s : State) (p : PortNo), (s.port p).arrivals = [] → s.takeArrivals p = s)
  ∧ (∀ (s u : State) (p : PortNo), (s.port p).arrivals ≠ [] → exec (.hostEntryArrival p) s = .next u →
      s.takeArrivals p = u.takeArrivals p)
  ∧ (∀ (s : State) (r : Request) (rest : List Request) (t : State) (b : Byte), s.hand.portsBlock = r :: rest →
      t = { s with hand := { s.hand with portsBlock := rest } } → b = readByte r.payload 0 →
      (r.kind = .portSet → exec (.portSet .block) s = .next (t.reply r.ref .badArg [b, 0, 0]))
      ∧ (r.kind = .portGet → exec (.portGet .block) s = .next (t.reply r.ref .badArg (b :: List.replicate 13 0)))
      ∧ (r.kind = .portClear → exec (.portClear .block) s = .next (t.reply r.ref .badArg [b, 0]))
      ∧ (r.kind = .portXfer → exec (.portXfer .block) s = .next (t.reply r.ref .badArg [b, 0, 0, 0, 0, 0])))

/-! ### Analog Converter -/

/-- R129, R131: ANALOG_SET by delay and power state, and ANALOG_GET, which changes nothing. -/
def Obligations.AnalogRequests : Prop :=
  ∀ (s : State) (r : Request) (rest : List Request) (t : State) (v : Byte), s.hand.converter = r :: rest →
    t = { s with hand := { s.hand with converter := rest } } → v = readByte r.payload 0 →
    (r.kind = .analogSet →
      (250 < v.toNat → exec .analogSet s = .next (t.reply r.ref .badArg [s.conv.power.code, s.conv.idleDelay]))
      ∧ (v.toNat ≤ 250 → s.conv.power ≠ .ready → exec .analogSet s = .next (State.reply
          { t with conv := { s.conv with idleDelay := v } } r.ref .ok [s.conv.power.code, v]))
      ∧ (v.toNat ≤ 250 → v ≠ 0 → s.conv.power = .ready → exec .analogSet s = .next (State.reply
          { t with conv := { s.conv with
              idleDelay := v, idleTimer := some (s.time + BitVec.ofNat 32 (1000 * v.toNat)) } } r.ref .ok [2, v]))
      ∧ (v = 0 → s.conv.power = .ready → exec .analogSet s = .next (State.reply
          { t with conv := { s.conv with idleDelay := 0, idleTimer := none } } r.ref .ok [2, 0])))
    ∧ (r.kind = .analogGet → exec .analogGet s = .next (t.reply r.ref .ok
        ([s.conv.power.code, s.conv.idleDelay]
          ++ (match s.conv.idleTimer with
              | none => [0, 0, 0, 0, 0]
              | some x => 1 :: be32 x)
          ++ [byteOf s.conv.arb.pending.length]
          ++ (match s.conv.granted with
              | none => [0, 0, 0, 0, 0]
              | some g => [byteOf g.entry.req.sweep.val, byteOf g.entry.req.position.val, byteOf g.entry.req.slot.val]
                ++ (match g.entry.req.copy.body with
                    | .analog d => [byteOf d.input.val, byteOf d.samples]
                    | .twoWire _ => [0, 0])))))

/-- R124 to R128: END_OF_WAKE 50 µs after the grant; END_OF_CONVERSION samples × 20 µs after the samples began, with the
average of the samples and the idle timer; IDLE_TIMER_EXPIRY at its time in READY. -/
def Obligations.ConverterEvents : Prop :=
  ∀ s : State,
    (∀ g, s.conv.power = .waking → s.conv.granted = some g → s.time = g.since + 50 → exec .endOfWake s = .next
      { s with conv := { s.conv with power := .converting, granted := some { g with since := s.time } } })
    ∧ (∀ (g : Conversion) (d : Analog) (v : Sample), s.conv.power = .converting → s.conv.granted = some g →
        g.entry.req.copy.body = .analog d → g.taken + 1 = d.samples → s.time = g.since + BitVec.ofNat 32 (20 * d.samples) →
        exec (.endOfConversion v) s = .next { s with conv := { s.conv with
          granted := none, power := .ready,
          idleTimer := if s.conv.idleDelay = 0 then none
            else some (s.time + BitVec.ofNat 32 (1000 * s.conv.idleDelay.toNat)),
          arb := { s.conv.arb with done := s.conv.arb.done ++ [{
            req := g.entry.req, status := .done, attempts := 1, time := s.time,
            data := be16 (BitVec.ofNat 16 ((g.sum + v.toNat) / d.samples)) }] } } })
    ∧ (s.conv.idleTimer = some s.time → s.conv.power = .ready → exec .idleTimerExpiry s = .next
        { s with conv := { s.conv with power := .off, idleTimer := none } })

/-! ### Watch Unit -/

/-- R138: the value of a DONE copy's data. -/
def Obligations.WatchedValue : Prop :=
  ∀ (w : WatchPart) (data : List Byte) (a b : Byte), data[w.offset]? = some a →
    (w.width = 1 → w.sign = .unsigned → w.value data = a.toNat)
    ∧ (w.width = 1 → w.sign = .signed → w.value data = a.toInt)
    ∧ (w.width = 2 → data[w.offset + 1]? = some b →
      (w.order = .big → w.sign = .unsigned → w.value data = 256 * a.toNat + b.toNat)
      ∧ (w.order = .little → w.sign = .unsigned → w.value data = a.toNat + 256 * b.toNat)
      ∧ (w.order = .big → w.sign = .signed → w.value data = (a ++ b).toInt)
      ∧ (w.order = .little → w.sign = .signed → w.value data = (b ++ a).toInt))

/-- R139, Table 8-1: the watch state a value leads to, on exact signed integers. -/
def Obligations.WatchEvaluation : Prop :=
  ∀ (v low high : Int) (y : Nat), low ≤ high →
    (∀ before, before = .unknown ∨ before = .normal →
      (v < low → evaluate before v low high y = .low) ∧ (high < v → evaluate before v low high y = .high)
      ∧ (low ≤ v → v ≤ high → evaluate before v low high y = .normal))
    ∧ ((high < v → evaluate .low v low high y = .high)
      ∧ (low + y ≤ v → v ≤ high → evaluate .low v low high y = .normal)
      ∧ (v ≤ high → v < low + y → evaluate .low v low high y = .low))
    ∧ ((v < low → evaluate .high v low high y = .low)
      ∧ (v ≤ high - y → low ≤ v → evaluate .high v low high y = .normal)
      ∧ (low ≤ v → high - y < v → evaluate .high v low high y = .high))

/-- R135, R143: COMPLETION_COPY of a fault: the count rises to the fault limit, where a GOOD slot becomes FAILING and
UNKNOWN with a HEALTH event.

R136, R140, R143: COMPLETION_COPY of a DONE: the count becomes 0; a FAILING slot recovers with a HEALTH event; then the
value is evaluated, and a change of watch state but UNKNOWN to NORMAL originates a WATCH event. -/
def Obligations.CopiesTaken : Prop :=
  (∀ (s : State) (c : Completion) (rest : List WatchItem) (k : Fin 64) (w : WatchSlot) (limit : Nat),
      s.inbox = .copy c :: rest → c.status ≠ .done → k = c.req.slot → w = s.watch k → limit = c.req.copy.faultLimit →
      (w.health = .good → w.faults + 1 < limit → exec .completionCopy s = .next
        { s with inbox := rest, watches := s.watches.set k { w with faults := w.faults + 1 } })
      ∧ (w.health = .good → w.faults + 1 = limit → exec .completionCopy s = .next (State.offerEvent
        { s with inbox := rest, watches := s.watches.set k { watch := .unknown, health := .failing, faults := limit } }
        .health ([byteOf k.val, 1, c.status.code, byteOf limit, byteOf c.req.sweep.val] ++ be32 c.req.pass ++ be32 c.time)))
      ∧ (w.health = .failing → w.faults = limit → exec .completionCopy s = .next { s with inbox := rest }))
  ∧ (∀ (s : State) (c : Completion) (rest : List WatchItem) (k : Fin 64) (w : WatchSlot) (t : State),
      s.inbox = .copy c :: rest → c.status = .done → k = c.req.slot → w = s.watch k →
      t = (if w.health = .failing then State.offerEvent
            { s with inbox := rest, watches := s.watches.set k { w with health := .good, faults := 0 } }
            .health ([byteOf k.val, 0, 0, 0, byteOf c.req.sweep.val] ++ be32 c.req.pass ++ be32 c.time)
          else { s with inbox := rest, watches := s.watches.set k { w with health := .good, faults := 0 } }) →
      (c.req.copy.watch = none → exec .completionCopy s = .next t)
      ∧ (∀ (part : WatchPart) (v : Int) (new : WatchState), c.req.copy.watch = some part → v = part.value c.data →
          new = evaluate w.watch v part.low.toInt part.high.toInt part.hysteresis.toNat →
          exec .completionCopy s = .next
            (if new = w.watch ∨ (w.watch = .unknown ∧ new = .normal)
              then { t with watches := s.watches.set k { watch := new, health := .good, faults := 0 } }
              else State.offerEvent { t with watches := s.watches.set k { watch := new, health := .good, faults := 0 } }
                .watch ([byteOf k.val, w.watch.code, new.code] ++ be32 (BitVec.ofInt 32 v) ++ [byteOf c.req.sweep.val]
                  ++ be32 c.req.pass ++ be32 c.time))))

/-- R141, R142: WATCH_GET changes nothing; WATCH_RESET makes the slot UNKNOWN, GOOD and 0 without an event; both report.

The zeros of a refused WATCH.RESET are the model's reading of R177 (log 14). -/
def Obligations.WatchRequests : Prop :=
  ∀ (s : State) (r : Request) (rest : List WatchItem) (t : State), s.inbox = .request r :: rest →
    t = { s with inbox := rest } →
    (r.kind = .watchGet →
      (63 < readNat r.payload 0 → exec .watchGet s = .next
        (t.reply r.ref .badArg [readByte r.payload 0, 0, 0, 0, byteOf s.dropped]))
      ∧ (∀ k : Fin 64, readNat r.payload 0 = k.val → exec .watchGet s = .next (t.reply r.ref .ok
        [byteOf k.val, (s.watch k).watch.code, (s.watch k).health.code, byteOf (s.watch k).faults, byteOf s.dropped])))
    ∧ (r.kind = .watchReset →
      (63 < readNat r.payload 0 → exec .watchReset s = .next (t.reply r.ref .badArg [0, 0, 0, 0, 0]))
      ∧ (∀ k : Fin 64, readNat r.payload 0 = k.val → exec .watchReset s = .next (State.reply
        { t with watches := s.watches.set k { watch := .unknown, health := .good, faults := 0 } } r.ref .ok
        [byteOf k.val, 0, 0, 0, byteOf s.dropped])))
end

