-- ==== Sys2Proof/Laws/State.lean ====
section
/-! SUPPORT. One lemma per field per update of State, and what each reader gives after each update; no later proof unfolds
a record update. -/

namespace Sys2Proof.Machine

variable (s : State)

/-! ### setSlot -/

@[simp] theorem State.setSlot_pending (k : Fin 64) (x : ProbeSlot) : (s.setSlot k x).pending = s.pending := rfl
@[simp] theorem State.setSlot_time (k : Fin 64) (x : ProbeSlot) : (s.setSlot k x).time = s.time := rfl
@[simp] theorem State.setSlot_slots (k : Fin 64) (x : ProbeSlot) : (s.setSlot k x).slots = s.slots.set k x := rfl
@[simp] theorem State.setSlot_sweeps (k : Fin 64) (x : ProbeSlot) : (s.setSlot k x).sweeps = s.sweeps := rfl
@[simp] theorem State.setSlot_pages (k : Fin 64) (x : ProbeSlot) : (s.setSlot k x).pages = s.pages := rfl
@[simp] theorem State.setSlot_waiters (k : Fin 64) (x : ProbeSlot) : (s.setSlot k x).waiters = s.waiters := rfl
@[simp] theorem State.setSlot_ports (k : Fin 64) (x : ProbeSlot) : (s.setSlot k x).ports = s.ports := rfl
@[simp] theorem State.setSlot_conv (k : Fin 64) (x : ProbeSlot) : (s.setSlot k x).conv = s.conv := rfl
@[simp] theorem State.setSlot_watches (k : Fin 64) (x : ProbeSlot) : (s.setSlot k x).watches = s.watches := rfl
@[simp] theorem State.setSlot_dropped (k : Fin 64) (x : ProbeSlot) : (s.setSlot k x).dropped = s.dropped := rfl
@[simp] theorem State.setSlot_inbox (k : Fin 64) (x : ProbeSlot) : (s.setSlot k x).inbox = s.inbox := rfl
@[simp] theorem State.setSlot_hand (k : Fin 64) (x : ProbeSlot) : (s.setSlot k x).hand = s.hand := rfl
@[simp] theorem State.setSlot_link (k : Fin 64) (x : ProbeSlot) : (s.setSlot k x).link = s.link := rfl
@[simp] theorem State.setSlot_free (k : Fin 64) (x : ProbeSlot) : (s.setSlot k x).free = s.free := rfl

/-! ### setSweep -/

@[simp] theorem State.setSweep_pending (i : SweepNo) (x : Sweep) : (s.setSweep i x).pending = s.pending := rfl
@[simp] theorem State.setSweep_time (i : SweepNo) (x : Sweep) : (s.setSweep i x).time = s.time := rfl
@[simp] theorem State.setSweep_slots (i : SweepNo) (x : Sweep) : (s.setSweep i x).slots = s.slots := rfl
@[simp] theorem State.setSweep_sweeps (i : SweepNo) (x : Sweep) : (s.setSweep i x).sweeps = s.sweeps.set i x := rfl
@[simp] theorem State.setSweep_pages (i : SweepNo) (x : Sweep) : (s.setSweep i x).pages = s.pages := rfl
@[simp] theorem State.setSweep_waiters (i : SweepNo) (x : Sweep) : (s.setSweep i x).waiters = s.waiters := rfl
@[simp] theorem State.setSweep_ports (i : SweepNo) (x : Sweep) : (s.setSweep i x).ports = s.ports := rfl
@[simp] theorem State.setSweep_conv (i : SweepNo) (x : Sweep) : (s.setSweep i x).conv = s.conv := rfl
@[simp] theorem State.setSweep_watches (i : SweepNo) (x : Sweep) : (s.setSweep i x).watches = s.watches := rfl
@[simp] theorem State.setSweep_dropped (i : SweepNo) (x : Sweep) : (s.setSweep i x).dropped = s.dropped := rfl
@[simp] theorem State.setSweep_inbox (i : SweepNo) (x : Sweep) : (s.setSweep i x).inbox = s.inbox := rfl
@[simp] theorem State.setSweep_hand (i : SweepNo) (x : Sweep) : (s.setSweep i x).hand = s.hand := rfl
@[simp] theorem State.setSweep_link (i : SweepNo) (x : Sweep) : (s.setSweep i x).link = s.link := rfl
@[simp] theorem State.setSweep_free (i : SweepNo) (x : Sweep) : (s.setSweep i x).free = s.free := rfl

/-! ### setPages -/

@[simp] theorem State.setPages_pending (i : SweepNo) (x : Pages) : (s.setPages i x).pending = s.pending := rfl
@[simp] theorem State.setPages_time (i : SweepNo) (x : Pages) : (s.setPages i x).time = s.time := rfl
@[simp] theorem State.setPages_slots (i : SweepNo) (x : Pages) : (s.setPages i x).slots = s.slots := rfl
@[simp] theorem State.setPages_sweeps (i : SweepNo) (x : Pages) : (s.setPages i x).sweeps = s.sweeps := rfl
@[simp] theorem State.setPages_pages (i : SweepNo) (x : Pages) : (s.setPages i x).pages = s.pages.set i x := rfl
@[simp] theorem State.setPages_waiters (i : SweepNo) (x : Pages) : (s.setPages i x).waiters = s.waiters := rfl
@[simp] theorem State.setPages_ports (i : SweepNo) (x : Pages) : (s.setPages i x).ports = s.ports := rfl
@[simp] theorem State.setPages_conv (i : SweepNo) (x : Pages) : (s.setPages i x).conv = s.conv := rfl
@[simp] theorem State.setPages_watches (i : SweepNo) (x : Pages) : (s.setPages i x).watches = s.watches := rfl
@[simp] theorem State.setPages_dropped (i : SweepNo) (x : Pages) : (s.setPages i x).dropped = s.dropped := rfl
@[simp] theorem State.setPages_inbox (i : SweepNo) (x : Pages) : (s.setPages i x).inbox = s.inbox := rfl
@[simp] theorem State.setPages_hand (i : SweepNo) (x : Pages) : (s.setPages i x).hand = s.hand := rfl
@[simp] theorem State.setPages_link (i : SweepNo) (x : Pages) : (s.setPages i x).link = s.link := rfl
@[simp] theorem State.setPages_free (i : SweepNo) (x : Pages) : (s.setPages i x).free = s.free := rfl

/-! ### setPort -/

@[simp] theorem State.setPort_pending (p : PortNo) (x : Port) : (s.setPort p x).pending = s.pending := rfl
@[simp] theorem State.setPort_time (p : PortNo) (x : Port) : (s.setPort p x).time = s.time := rfl
@[simp] theorem State.setPort_slots (p : PortNo) (x : Port) : (s.setPort p x).slots = s.slots := rfl
@[simp] theorem State.setPort_sweeps (p : PortNo) (x : Port) : (s.setPort p x).sweeps = s.sweeps := rfl
@[simp] theorem State.setPort_pages (p : PortNo) (x : Port) : (s.setPort p x).pages = s.pages := rfl
@[simp] theorem State.setPort_waiters (p : PortNo) (x : Port) : (s.setPort p x).waiters = s.waiters := rfl
@[simp] theorem State.setPort_ports (p : PortNo) (x : Port) : (s.setPort p x).ports = s.ports.set p x := rfl
@[simp] theorem State.setPort_conv (p : PortNo) (x : Port) : (s.setPort p x).conv = s.conv := rfl
@[simp] theorem State.setPort_watches (p : PortNo) (x : Port) : (s.setPort p x).watches = s.watches := rfl
@[simp] theorem State.setPort_dropped (p : PortNo) (x : Port) : (s.setPort p x).dropped = s.dropped := rfl
@[simp] theorem State.setPort_inbox (p : PortNo) (x : Port) : (s.setPort p x).inbox = s.inbox := rfl
@[simp] theorem State.setPort_hand (p : PortNo) (x : Port) : (s.setPort p x).hand = s.hand := rfl
@[simp] theorem State.setPort_link (p : PortNo) (x : Port) : (s.setPort p x).link = s.link := rfl
@[simp] theorem State.setPort_free (p : PortNo) (x : Port) : (s.setPort p x).free = s.free := rfl

/-! ### setWatch -/

@[simp] theorem State.setWatch_pending (k : Fin 64) (x : WatchSlot) : (s.setWatch k x).pending = s.pending := rfl
@[simp] theorem State.setWatch_time (k : Fin 64) (x : WatchSlot) : (s.setWatch k x).time = s.time := rfl
@[simp] theorem State.setWatch_slots (k : Fin 64) (x : WatchSlot) : (s.setWatch k x).slots = s.slots := rfl
@[simp] theorem State.setWatch_sweeps (k : Fin 64) (x : WatchSlot) : (s.setWatch k x).sweeps = s.sweeps := rfl
@[simp] theorem State.setWatch_pages (k : Fin 64) (x : WatchSlot) : (s.setWatch k x).pages = s.pages := rfl
@[simp] theorem State.setWatch_waiters (k : Fin 64) (x : WatchSlot) : (s.setWatch k x).waiters = s.waiters := rfl
@[simp] theorem State.setWatch_ports (k : Fin 64) (x : WatchSlot) : (s.setWatch k x).ports = s.ports := rfl
@[simp] theorem State.setWatch_conv (k : Fin 64) (x : WatchSlot) : (s.setWatch k x).conv = s.conv := rfl
@[simp] theorem State.setWatch_watches (k : Fin 64) (x : WatchSlot) : (s.setWatch k x).watches = s.watches.set k x := rfl
@[simp] theorem State.setWatch_dropped (k : Fin 64) (x : WatchSlot) : (s.setWatch k x).dropped = s.dropped := rfl
@[simp] theorem State.setWatch_inbox (k : Fin 64) (x : WatchSlot) : (s.setWatch k x).inbox = s.inbox := rfl
@[simp] theorem State.setWatch_hand (k : Fin 64) (x : WatchSlot) : (s.setWatch k x).hand = s.hand := rfl
@[simp] theorem State.setWatch_link (k : Fin 64) (x : WatchSlot) : (s.setWatch k x).link = s.link := rfl
@[simp] theorem State.setWatch_free (k : Fin 64) (x : WatchSlot) : (s.setWatch k x).free = s.free := rfl

/-! ### setWaiters -/

@[simp] theorem State.setWaiters_pending (x : List Waiter) : (s.setWaiters x).pending = s.pending := rfl
@[simp] theorem State.setWaiters_time (x : List Waiter) : (s.setWaiters x).time = s.time := rfl
@[simp] theorem State.setWaiters_slots (x : List Waiter) : (s.setWaiters x).slots = s.slots := rfl
@[simp] theorem State.setWaiters_sweeps (x : List Waiter) : (s.setWaiters x).sweeps = s.sweeps := rfl
@[simp] theorem State.setWaiters_pages (x : List Waiter) : (s.setWaiters x).pages = s.pages := rfl
@[simp] theorem State.setWaiters_waiters (x : List Waiter) : (s.setWaiters x).waiters = x := rfl
@[simp] theorem State.setWaiters_ports (x : List Waiter) : (s.setWaiters x).ports = s.ports := rfl
@[simp] theorem State.setWaiters_conv (x : List Waiter) : (s.setWaiters x).conv = s.conv := rfl
@[simp] theorem State.setWaiters_watches (x : List Waiter) : (s.setWaiters x).watches = s.watches := rfl
@[simp] theorem State.setWaiters_dropped (x : List Waiter) : (s.setWaiters x).dropped = s.dropped := rfl
@[simp] theorem State.setWaiters_inbox (x : List Waiter) : (s.setWaiters x).inbox = s.inbox := rfl
@[simp] theorem State.setWaiters_hand (x : List Waiter) : (s.setWaiters x).hand = s.hand := rfl
@[simp] theorem State.setWaiters_link (x : List Waiter) : (s.setWaiters x).link = s.link := rfl
@[simp] theorem State.setWaiters_free (x : List Waiter) : (s.setWaiters x).free = s.free := rfl

/-! ### setConv -/

@[simp] theorem State.setConv_pending (x : Converter) : (s.setConv x).pending = s.pending := rfl
@[simp] theorem State.setConv_time (x : Converter) : (s.setConv x).time = s.time := rfl
@[simp] theorem State.setConv_slots (x : Converter) : (s.setConv x).slots = s.slots := rfl
@[simp] theorem State.setConv_sweeps (x : Converter) : (s.setConv x).sweeps = s.sweeps := rfl
@[simp] theorem State.setConv_pages (x : Converter) : (s.setConv x).pages = s.pages := rfl
@[simp] theorem State.setConv_waiters (x : Converter) : (s.setConv x).waiters = s.waiters := rfl
@[simp] theorem State.setConv_ports (x : Converter) : (s.setConv x).ports = s.ports := rfl
@[simp] theorem State.setConv_conv (x : Converter) : (s.setConv x).conv = x := rfl
@[simp] theorem State.setConv_watches (x : Converter) : (s.setConv x).watches = s.watches := rfl
@[simp] theorem State.setConv_dropped (x : Converter) : (s.setConv x).dropped = s.dropped := rfl
@[simp] theorem State.setConv_inbox (x : Converter) : (s.setConv x).inbox = s.inbox := rfl
@[simp] theorem State.setConv_hand (x : Converter) : (s.setConv x).hand = s.hand := rfl
@[simp] theorem State.setConv_link (x : Converter) : (s.setConv x).link = s.link := rfl
@[simp] theorem State.setConv_free (x : Converter) : (s.setConv x).free = s.free := rfl

/-! ### setInbox -/

@[simp] theorem State.setInbox_pending (x : List WatchItem) : (s.setInbox x).pending = s.pending := rfl
@[simp] theorem State.setInbox_time (x : List WatchItem) : (s.setInbox x).time = s.time := rfl
@[simp] theorem State.setInbox_slots (x : List WatchItem) : (s.setInbox x).slots = s.slots := rfl
@[simp] theorem State.setInbox_sweeps (x : List WatchItem) : (s.setInbox x).sweeps = s.sweeps := rfl
@[simp] theorem State.setInbox_pages (x : List WatchItem) : (s.setInbox x).pages = s.pages := rfl
@[simp] theorem State.setInbox_waiters (x : List WatchItem) : (s.setInbox x).waiters = s.waiters := rfl
@[simp] theorem State.setInbox_ports (x : List WatchItem) : (s.setInbox x).ports = s.ports := rfl
@[simp] theorem State.setInbox_conv (x : List WatchItem) : (s.setInbox x).conv = s.conv := rfl
@[simp] theorem State.setInbox_watches (x : List WatchItem) : (s.setInbox x).watches = s.watches := rfl
@[simp] theorem State.setInbox_dropped (x : List WatchItem) : (s.setInbox x).dropped = s.dropped := rfl
@[simp] theorem State.setInbox_inbox (x : List WatchItem) : (s.setInbox x).inbox = x := rfl
@[simp] theorem State.setInbox_hand (x : List WatchItem) : (s.setInbox x).hand = s.hand := rfl
@[simp] theorem State.setInbox_link (x : List WatchItem) : (s.setInbox x).link = s.link := rfl
@[simp] theorem State.setInbox_free (x : List WatchItem) : (s.setInbox x).free = s.free := rfl

/-! ### setHand -/

@[simp] theorem State.setHand_pending (x : HandOff) : (s.setHand x).pending = s.pending := rfl
@[simp] theorem State.setHand_time (x : HandOff) : (s.setHand x).time = s.time := rfl
@[simp] theorem State.setHand_slots (x : HandOff) : (s.setHand x).slots = s.slots := rfl
@[simp] theorem State.setHand_sweeps (x : HandOff) : (s.setHand x).sweeps = s.sweeps := rfl
@[simp] theorem State.setHand_pages (x : HandOff) : (s.setHand x).pages = s.pages := rfl
@[simp] theorem State.setHand_waiters (x : HandOff) : (s.setHand x).waiters = s.waiters := rfl
@[simp] theorem State.setHand_ports (x : HandOff) : (s.setHand x).ports = s.ports := rfl
@[simp] theorem State.setHand_conv (x : HandOff) : (s.setHand x).conv = s.conv := rfl
@[simp] theorem State.setHand_watches (x : HandOff) : (s.setHand x).watches = s.watches := rfl
@[simp] theorem State.setHand_dropped (x : HandOff) : (s.setHand x).dropped = s.dropped := rfl
@[simp] theorem State.setHand_inbox (x : HandOff) : (s.setHand x).inbox = s.inbox := rfl
@[simp] theorem State.setHand_hand (x : HandOff) : (s.setHand x).hand = x := rfl
@[simp] theorem State.setHand_link (x : HandOff) : (s.setHand x).link = s.link := rfl
@[simp] theorem State.setHand_free (x : HandOff) : (s.setHand x).free = s.free := rfl

/-! ### setLink -/

@[simp] theorem State.setLink_pending (x : Link) : (s.setLink x).pending = s.pending := rfl
@[simp] theorem State.setLink_time (x : Link) : (s.setLink x).time = s.time := rfl
@[simp] theorem State.setLink_slots (x : Link) : (s.setLink x).slots = s.slots := rfl
@[simp] theorem State.setLink_sweeps (x : Link) : (s.setLink x).sweeps = s.sweeps := rfl
@[simp] theorem State.setLink_pages (x : Link) : (s.setLink x).pages = s.pages := rfl
@[simp] theorem State.setLink_waiters (x : Link) : (s.setLink x).waiters = s.waiters := rfl
@[simp] theorem State.setLink_ports (x : Link) : (s.setLink x).ports = s.ports := rfl
@[simp] theorem State.setLink_conv (x : Link) : (s.setLink x).conv = s.conv := rfl
@[simp] theorem State.setLink_watches (x : Link) : (s.setLink x).watches = s.watches := rfl
@[simp] theorem State.setLink_dropped (x : Link) : (s.setLink x).dropped = s.dropped := rfl
@[simp] theorem State.setLink_inbox (x : Link) : (s.setLink x).inbox = s.inbox := rfl
@[simp] theorem State.setLink_hand (x : Link) : (s.setLink x).hand = s.hand := rfl
@[simp] theorem State.setLink_link (x : Link) : (s.setLink x).link = x := rfl
@[simp] theorem State.setLink_free (x : Link) : (s.setLink x).free = s.free := rfl

/-! ### Readers after updates -/

@[simp] theorem State.setSlot_slot (k : Fin 64) (x : ProbeSlot) : (s.setSlot k x).slot k = x := by simp [State.setSlot, State.slot]
theorem State.setSlot_slot_ne (k : Fin 64) (x : ProbeSlot) (j : Fin 64) (h : j ≠ k) : (s.setSlot k x).slot j = s.slot j := by
  have : ((k : Nat) = j) = False := by simpa [Fin.ext_iff, eq_comm] using h
  simp [State.setSlot, State.slot, this]
@[simp] theorem State.setSweep_slot (i : SweepNo) (x : Sweep) (j : Fin 64) : (s.setSweep i x).slot j = s.slot j := rfl
@[simp] theorem State.setPages_slot (i : SweepNo) (x : Pages) (j : Fin 64) : (s.setPages i x).slot j = s.slot j := rfl
@[simp] theorem State.setPort_slot (p : PortNo) (x : Port) (j : Fin 64) : (s.setPort p x).slot j = s.slot j := rfl
@[simp] theorem State.setWatch_slot (k : Fin 64) (x : WatchSlot) (j : Fin 64) : (s.setWatch k x).slot j = s.slot j := rfl
@[simp] theorem State.setWaiters_slot (x : List Waiter) (j : Fin 64) : (s.setWaiters x).slot j = s.slot j := rfl
@[simp] theorem State.setConv_slot (x : Converter) (j : Fin 64) : (s.setConv x).slot j = s.slot j := rfl
@[simp] theorem State.setInbox_slot (x : List WatchItem) (j : Fin 64) : (s.setInbox x).slot j = s.slot j := rfl
@[simp] theorem State.setHand_slot (x : HandOff) (j : Fin 64) : (s.setHand x).slot j = s.slot j := rfl
@[simp] theorem State.setLink_slot (x : Link) (j : Fin 64) : (s.setLink x).slot j = s.slot j := rfl

@[simp] theorem State.setSlot_sweep (k : Fin 64) (x : ProbeSlot) (j : SweepNo) : (s.setSlot k x).sweep j = s.sweep j := rfl
@[simp] theorem State.setSweep_sweep (i : SweepNo) (x : Sweep) : (s.setSweep i x).sweep i = x := by simp [State.setSweep, State.sweep]
theorem State.setSweep_sweep_ne (i : SweepNo) (x : Sweep) (j : SweepNo) (h : j ≠ i) : (s.setSweep i x).sweep j = s.sweep j := by
  have : ((i : Nat) = j) = False := by simpa [Fin.ext_iff, eq_comm] using h
  simp [State.setSweep, State.sweep, this]
@[simp] theorem State.setPages_sweep (i : SweepNo) (x : Pages) (j : SweepNo) : (s.setPages i x).sweep j = s.sweep j := rfl
@[simp] theorem State.setPort_sweep (p : PortNo) (x : Port) (j : SweepNo) : (s.setPort p x).sweep j = s.sweep j := rfl
@[simp] theorem State.setWatch_sweep (k : Fin 64) (x : WatchSlot) (j : SweepNo) : (s.setWatch k x).sweep j = s.sweep j := rfl
@[simp] theorem State.setWaiters_sweep (x : List Waiter) (j : SweepNo) : (s.setWaiters x).sweep j = s.sweep j := rfl
@[simp] theorem State.setConv_sweep (x : Converter) (j : SweepNo) : (s.setConv x).sweep j = s.sweep j := rfl
@[simp] theorem State.setInbox_sweep (x : List WatchItem) (j : SweepNo) : (s.setInbox x).sweep j = s.sweep j := rfl
@[simp] theorem State.setHand_sweep (x : HandOff) (j : SweepNo) : (s.setHand x).sweep j = s.sweep j := rfl
@[simp] theorem State.setLink_sweep (x : Link) (j : SweepNo) : (s.setLink x).sweep j = s.sweep j := rfl

@[simp] theorem State.setSlot_pagesOf (k : Fin 64) (x : ProbeSlot) (j : SweepNo) : (s.setSlot k x).pagesOf j = s.pagesOf j := rfl
@[simp] theorem State.setSweep_pagesOf (i : SweepNo) (x : Sweep) (j : SweepNo) : (s.setSweep i x).pagesOf j = s.pagesOf j := rfl
@[simp] theorem State.setPages_pagesOf (i : SweepNo) (x : Pages) : (s.setPages i x).pagesOf i = x := by simp [State.setPages, State.pagesOf]
theorem State.setPages_pagesOf_ne (i : SweepNo) (x : Pages) (j : SweepNo) (h : j ≠ i) : (s.setPages i x).pagesOf j = s.pagesOf j := by
  have : ((i : Nat) = j) = False := by simpa [Fin.ext_iff, eq_comm] using h
  simp [State.setPages, State.pagesOf, this]
@[simp] theorem State.setPort_pagesOf (p : PortNo) (x : Port) (j : SweepNo) : (s.setPort p x).pagesOf j = s.pagesOf j := rfl
@[simp] theorem State.setWatch_pagesOf (k : Fin 64) (x : WatchSlot) (j : SweepNo) : (s.setWatch k x).pagesOf j = s.pagesOf j := rfl
@[simp] theorem State.setWaiters_pagesOf (x : List Waiter) (j : SweepNo) : (s.setWaiters x).pagesOf j = s.pagesOf j := rfl
@[simp] theorem State.setConv_pagesOf (x : Converter) (j : SweepNo) : (s.setConv x).pagesOf j = s.pagesOf j := rfl
@[simp] theorem State.setInbox_pagesOf (x : List WatchItem) (j : SweepNo) : (s.setInbox x).pagesOf j = s.pagesOf j := rfl
@[simp] theorem State.setHand_pagesOf (x : HandOff) (j : SweepNo) : (s.setHand x).pagesOf j = s.pagesOf j := rfl
@[simp] theorem State.setLink_pagesOf (x : Link) (j : SweepNo) : (s.setLink x).pagesOf j = s.pagesOf j := rfl

@[simp] theorem State.setSlot_port (k : Fin 64) (x : ProbeSlot) (j : PortNo) : (s.setSlot k x).port j = s.port j := rfl
@[simp] theorem State.setSweep_port (i : SweepNo) (x : Sweep) (j : PortNo) : (s.setSweep i x).port j = s.port j := rfl
@[simp] theorem State.setPages_port (i : SweepNo) (x : Pages) (j : PortNo) : (s.setPages i x).port j = s.port j := rfl
@[simp] theorem State.setPort_port (p : PortNo) (x : Port) : (s.setPort p x).port p = x := by simp [State.setPort, State.port]
theorem State.setPort_port_ne (p : PortNo) (x : Port) (j : PortNo) (h : j ≠ p) : (s.setPort p x).port j = s.port j := by
  have : ((p : Nat) = j) = False := by simpa [Fin.ext_iff, eq_comm] using h
  simp [State.setPort, State.port, this]
@[simp] theorem State.setWatch_port (k : Fin 64) (x : WatchSlot) (j : PortNo) : (s.setWatch k x).port j = s.port j := rfl
@[simp] theorem State.setWaiters_port (x : List Waiter) (j : PortNo) : (s.setWaiters x).port j = s.port j := rfl
@[simp] theorem State.setConv_port (x : Converter) (j : PortNo) : (s.setConv x).port j = s.port j := rfl
@[simp] theorem State.setInbox_port (x : List WatchItem) (j : PortNo) : (s.setInbox x).port j = s.port j := rfl
@[simp] theorem State.setHand_port (x : HandOff) (j : PortNo) : (s.setHand x).port j = s.port j := rfl
@[simp] theorem State.setLink_port (x : Link) (j : PortNo) : (s.setLink x).port j = s.port j := rfl

@[simp] theorem State.setSlot_watch (k : Fin 64) (x : ProbeSlot) (j : Fin 64) : (s.setSlot k x).watch j = s.watch j := rfl
@[simp] theorem State.setSweep_watch (i : SweepNo) (x : Sweep) (j : Fin 64) : (s.setSweep i x).watch j = s.watch j := rfl
@[simp] theorem State.setPages_watch (i : SweepNo) (x : Pages) (j : Fin 64) : (s.setPages i x).watch j = s.watch j := rfl
@[simp] theorem State.setPort_watch (p : PortNo) (x : Port) (j : Fin 64) : (s.setPort p x).watch j = s.watch j := rfl
@[simp] theorem State.setWatch_watch (k : Fin 64) (x : WatchSlot) : (s.setWatch k x).watch k = x := by simp [State.setWatch, State.watch]
theorem State.setWatch_watch_ne (k : Fin 64) (x : WatchSlot) (j : Fin 64) (h : j ≠ k) : (s.setWatch k x).watch j = s.watch j := by
  have : ((k : Nat) = j) = False := by simpa [Fin.ext_iff, eq_comm] using h
  simp [State.setWatch, State.watch, this]
@[simp] theorem State.setWaiters_watch (x : List Waiter) (j : Fin 64) : (s.setWaiters x).watch j = s.watch j := rfl
@[simp] theorem State.setConv_watch (x : Converter) (j : Fin 64) : (s.setConv x).watch j = s.watch j := rfl
@[simp] theorem State.setInbox_watch (x : List WatchItem) (j : Fin 64) : (s.setInbox x).watch j = s.watch j := rfl
@[simp] theorem State.setHand_watch (x : HandOff) (j : Fin 64) : (s.setHand x).watch j = s.watch j := rfl
@[simp] theorem State.setLink_watch (x : Link) (j : Fin 64) : (s.setLink x).watch j = s.watch j := rfl

end Sys2Proof.Machine
end

