-- ==== Sys2Proof/Laws/Ops.lean ====
section
/-! SUPPORT. What each shared operation can do, said once: which fields a reply, an event and an answer to waiters leave, and
what they do to the link. -/

namespace Sys2Proof.Machine

variable (s : State)

/-! ### A reply changes the link only -/

@[simp] theorem State.reply_link (ref : ReqRef) (st : Status) (items : List Byte) :
    (s.reply ref st items).link = s.link.reply ref (st.code :: items) := rfl
@[simp] theorem State.reply_pending (ref : ReqRef) (st : Status) (items : List Byte) : (s.reply ref st items).pending = s.pending := rfl
@[simp] theorem State.reply_time (ref : ReqRef) (st : Status) (items : List Byte) : (s.reply ref st items).time = s.time := rfl
@[simp] theorem State.reply_slots (ref : ReqRef) (st : Status) (items : List Byte) : (s.reply ref st items).slots = s.slots := rfl
@[simp] theorem State.reply_sweeps (ref : ReqRef) (st : Status) (items : List Byte) : (s.reply ref st items).sweeps = s.sweeps := rfl
@[simp] theorem State.reply_pages (ref : ReqRef) (st : Status) (items : List Byte) : (s.reply ref st items).pages = s.pages := rfl
@[simp] theorem State.reply_waiters (ref : ReqRef) (st : Status) (items : List Byte) : (s.reply ref st items).waiters = s.waiters := rfl
@[simp] theorem State.reply_ports (ref : ReqRef) (st : Status) (items : List Byte) : (s.reply ref st items).ports = s.ports := rfl
@[simp] theorem State.reply_conv (ref : ReqRef) (st : Status) (items : List Byte) : (s.reply ref st items).conv = s.conv := rfl
@[simp] theorem State.reply_watches (ref : ReqRef) (st : Status) (items : List Byte) : (s.reply ref st items).watches = s.watches := rfl
@[simp] theorem State.reply_dropped (ref : ReqRef) (st : Status) (items : List Byte) : (s.reply ref st items).dropped = s.dropped := rfl
@[simp] theorem State.reply_inbox (ref : ReqRef) (st : Status) (items : List Byte) : (s.reply ref st items).inbox = s.inbox := rfl
@[simp] theorem State.reply_hand (ref : ReqRef) (st : Status) (items : List Byte) : (s.reply ref st items).hand = s.hand := rfl
@[simp] theorem State.reply_free (ref : ReqRef) (st : Status) (items : List Byte) : (s.reply ref st items).free = s.free := rfl
@[simp] theorem State.reply_slot (ref : ReqRef) (st : Status) (items : List Byte) (k : Fin 64) : (s.reply ref st items).slot k = s.slot k := rfl
@[simp] theorem State.reply_sweep (ref : ReqRef) (st : Status) (items : List Byte) (i : SweepNo) : (s.reply ref st items).sweep i = s.sweep i := rfl
@[simp] theorem State.reply_pagesOf (ref : ReqRef) (st : Status) (items : List Byte) (i : SweepNo) : (s.reply ref st items).pagesOf i = s.pagesOf i := rfl
@[simp] theorem State.reply_port (ref : ReqRef) (st : Status) (items : List Byte) (p : PortNo) : (s.reply ref st items).port p = s.port p := rfl
@[simp] theorem State.reply_watch (ref : ReqRef) (st : Status) (items : List Byte) (k : Fin 64) : (s.reply ref st items).watch k = s.watch k := rfl

/-! ### An offered event changes the link and the dropped-event count only -/

/-- Whatever an event offer does, it is one update of the link and of the dropped-event count. -/
theorem State.offerEvent_cases (kind : OutKind) (items : List Byte) :
    (s.link.events < 16 ∧ s.offerEvent kind items
        = { s with link := s.link.append kind (byteOf s.dropped :: items), dropped := 0 })
    ∨ (16 ≤ s.link.events ∧ s.offerEvent kind items = { s with dropped := satAdd 255 s.dropped 1 }) := by
  by_cases h : s.link.events < 16
  · exact .inl ⟨h, if_pos h⟩
  · exact .inr ⟨Nat.le_of_not_lt h, if_neg h⟩

@[simp] theorem State.offerEvent_time (kind : OutKind) (items : List Byte) : (s.offerEvent kind items).time = s.time := by
  rcases s.offerEvent_cases kind items with ⟨_, h⟩ | ⟨_, h⟩ <;> rw [h]
@[simp] theorem State.offerEvent_pending (kind : OutKind) (items : List Byte) : (s.offerEvent kind items).pending = s.pending := by
  rcases s.offerEvent_cases kind items with ⟨_, h⟩ | ⟨_, h⟩ <;> rw [h]
@[simp] theorem State.offerEvent_slots (kind : OutKind) (items : List Byte) : (s.offerEvent kind items).slots = s.slots := by
  rcases s.offerEvent_cases kind items with ⟨_, h⟩ | ⟨_, h⟩ <;> rw [h]
@[simp] theorem State.offerEvent_sweeps (kind : OutKind) (items : List Byte) : (s.offerEvent kind items).sweeps = s.sweeps := by
  rcases s.offerEvent_cases kind items with ⟨_, h⟩ | ⟨_, h⟩ <;> rw [h]
@[simp] theorem State.offerEvent_pages (kind : OutKind) (items : List Byte) : (s.offerEvent kind items).pages = s.pages := by
  rcases s.offerEvent_cases kind items with ⟨_, h⟩ | ⟨_, h⟩ <;> rw [h]
@[simp] theorem State.offerEvent_waiters (kind : OutKind) (items : List Byte) : (s.offerEvent kind items).waiters = s.waiters := by
  rcases s.offerEvent_cases kind items with ⟨_, h⟩ | ⟨_, h⟩ <;> rw [h]
@[simp] theorem State.offerEvent_ports (kind : OutKind) (items : List Byte) : (s.offerEvent kind items).ports = s.ports := by
  rcases s.offerEvent_cases kind items with ⟨_, h⟩ | ⟨_, h⟩ <;> rw [h]
@[simp] theorem State.offerEvent_conv (kind : OutKind) (items : List Byte) : (s.offerEvent kind items).conv = s.conv := by
  rcases s.offerEvent_cases kind items with ⟨_, h⟩ | ⟨_, h⟩ <;> rw [h]
@[simp] theorem State.offerEvent_watches (kind : OutKind) (items : List Byte) : (s.offerEvent kind items).watches = s.watches := by
  rcases s.offerEvent_cases kind items with ⟨_, h⟩ | ⟨_, h⟩ <;> rw [h]
@[simp] theorem State.offerEvent_inbox (kind : OutKind) (items : List Byte) : (s.offerEvent kind items).inbox = s.inbox := by
  rcases s.offerEvent_cases kind items with ⟨_, h⟩ | ⟨_, h⟩ <;> rw [h]
@[simp] theorem State.offerEvent_hand (kind : OutKind) (items : List Byte) : (s.offerEvent kind items).hand = s.hand := by
  rcases s.offerEvent_cases kind items with ⟨_, h⟩ | ⟨_, h⟩ <;> rw [h]
@[simp] theorem State.offerEvent_slot (kind : OutKind) (items : List Byte) (k : Fin 64) :
    (s.offerEvent kind items).slot k = s.slot k := by simp [State.slot]
@[simp] theorem State.offerEvent_sweep (kind : OutKind) (items : List Byte) (i : SweepNo) :
    (s.offerEvent kind items).sweep i = s.sweep i := by simp [State.sweep]
@[simp] theorem State.offerEvent_pagesOf (kind : OutKind) (items : List Byte) (i : SweepNo) :
    (s.offerEvent kind items).pagesOf i = s.pagesOf i := by simp [State.pagesOf]
@[simp] theorem State.offerEvent_port (kind : OutKind) (items : List Byte) (p : PortNo) :
    (s.offerEvent kind items).port p = s.port p := by simp [State.port]
@[simp] theorem State.offerEvent_watch (kind : OutKind) (items : List Byte) (k : Fin 64) :
    (s.offerEvent kind items).watch k = s.watch k := by simp [State.watch]

/-! ### Answers to waiters change the link and the waiter list only -/

/-- What an answer to the waiters that `sel` chooses does. -/
theorem State.answerWaiters_eq (sel : Waiter → Bool) (st : Status) (items : Waiter → List Byte) :
    s.answerWaiters sel st items = { s with
      link := (s.waiters.filter sel).foldl (fun l w => l.reply w.ref (st.code :: items w)) s.link
      waiters := s.waiters.filter (fun w => !sel w) } := rfl

@[simp] theorem State.answerWaiters_waiters (sel : Waiter → Bool) (st : Status) (items : Waiter → List Byte) :
    (s.answerWaiters sel st items).waiters = s.waiters.filter (fun w => !sel w) := rfl
@[simp] theorem State.answerWaiters_sweeps (sel : Waiter → Bool) (st : Status) (items : Waiter → List Byte) :
    (s.answerWaiters sel st items).sweeps = s.sweeps := rfl
@[simp] theorem State.answerWaiters_sweep (sel : Waiter → Bool) (st : Status) (items : Waiter → List Byte) (i : SweepNo) :
    (s.answerWaiters sel st items).sweep i = s.sweep i := rfl
@[simp] theorem State.answerWaiters_ports (sel : Waiter → Bool) (st : Status) (items : Waiter → List Byte) :
    (s.answerWaiters sel st items).ports = s.ports := rfl
@[simp] theorem State.answerWaiters_conv (sel : Waiter → Bool) (st : Status) (items : Waiter → List Byte) :
    (s.answerWaiters sel st items).conv = s.conv := rfl
@[simp] theorem State.answerWaiters_slots (sel : Waiter → Bool) (st : Status) (items : Waiter → List Byte) :
    (s.answerWaiters sel st items).slots = s.slots := rfl
@[simp] theorem State.answerWaiters_pages (sel : Waiter → Bool) (st : Status) (items : Waiter → List Byte) :
    (s.answerWaiters sel st items).pages = s.pages := rfl

/-! ### The link's operations -/

/-- A reply is one of three: appended for an accepted request, or discarded. -/
theorem Link.reply_cases (l : Link) (ref : ReqRef) (body : List Byte) :
    (holds l.accepted ref = true ∧ l.reply ref body
        = Link.append { l with accepted := dropRef l.accepted ref } (.reply ref.replyKind) (ref.seq :: body))
    ∨ (holds l.accepted ref = false ∧ l.reply ref body = { l with orphans := dropRef l.orphans ref }) := by
  by_cases h : holds l.accepted ref = true
  · exact .inl ⟨h, if_pos h⟩
  · exact .inr ⟨by simpa using h, if_neg h⟩

@[simp] theorem Link.refresh_attnDue (l : Link) : (Link.refresh l).attnDue = l.attnDue := rfl
@[simp] theorem Link.refresh_attn (l : Link) : (Link.refresh l).attn = l.attnDue := rfl
@[simp] theorem Link.refresh_queue (l : Link) : (Link.refresh l).queue = l.queue := rfl
@[simp] theorem Link.refresh_state (l : Link) : (Link.refresh l).state = l.state := rfl
@[simp] theorem Link.refresh_cursor (l : Link) : (Link.refresh l).cursor = l.cursor := rfl
@[simp] theorem Link.refresh_accepted (l : Link) : (Link.refresh l).accepted = l.accepted := rfl
@[simp] theorem Link.refresh_orphans (l : Link) : (Link.refresh l).orphans = l.orphans := rfl
@[simp] theorem Link.refresh_exchange (l : Link) : (Link.refresh l).exchange = l.exchange := rfl
@[simp] theorem Link.refresh_t (l : Link) : (Link.refresh l).t = l.t := rfl
@[simp] theorem Link.refresh_e (l : Link) : (Link.refresh l).e = l.e := rfl

@[simp] theorem Link.append_queue (l : Link) (kind : OutKind) (payload : List Byte) :
    (l.append kind payload).queue = l.queue ++ [{ kind := kind, seq := l.t, payload := payload, sent := false }] := rfl
@[simp] theorem Link.append_state (l : Link) (kind : OutKind) (payload : List Byte) :
    (l.append kind payload).state = l.state := rfl
@[simp] theorem Link.append_cursor (l : Link) (kind : OutKind) (payload : List Byte) :
    (l.append kind payload).cursor = l.cursor := rfl
@[simp] theorem Link.append_accepted (l : Link) (kind : OutKind) (payload : List Byte) :
    (l.append kind payload).accepted = l.accepted := rfl
@[simp] theorem Link.append_orphans (l : Link) (kind : OutKind) (payload : List Byte) :
    (l.append kind payload).orphans = l.orphans := rfl
@[simp] theorem Link.append_exchange (l : Link) (kind : OutKind) (payload : List Byte) :
    (l.append kind payload).exchange = l.exchange := rfl
@[simp] theorem Link.append_t (l : Link) (kind : OutKind) (payload : List Byte) :
    (l.append kind payload).t = l.t + 1 := rfl

end Sys2Proof.Machine
end

