-- ==== Sys2Proof/Laws/Arbiters.lean ====
section
/-! SUPPORT. The order of grants (R91, R95): an ordered list has the members of the list it was made from, each before those
that are granted after it. What an arrival at an arbiter does. -/

namespace Sys2Proof.Machine

theorem insertBy_perm {α : Type} (before : α → α → Bool) (x : α) (l : List α) : (insertBy before x l).Perm (x :: l) := by
  induction l with
  | nil => exact List.Perm.refl _
  | cons y ys ih =>
    simp only [insertBy]; split
    · exact (ih.cons y).trans (List.Perm.swap x y ys)
    · exact List.Perm.refl _

/-- The grant order has the members of the collection. -/
theorem grantOrder_perm {α : Type} (before : α → α → Bool) (l : List α) : (grantOrder before l).Perm l := by
  induction l with
  | nil => exact List.Perm.refl _
  | cons y ys ih => exact (insertBy_perm before y _).trans (ih.cons y)

/-- Insertion keeps an order `le` that `before` decides. -/
theorem insertBy_pairwise {α : Type} (before : α → α → Bool) (le : α → α → Prop) (yes : ∀ x y, before x y = true → le x y)
    (no : ∀ x y, before x y = false → le y x) (trans : ∀ x y z, le x y → le y z → le x z) (x : α) (l : List α)
    (h : l.Pairwise le) : (insertBy before x l).Pairwise le := by
  induction l with
  | nil => simp [insertBy]
  | cons y ys ih =>
    simp only [insertBy]; rw [List.pairwise_cons] at h; split
    · rename_i hb
      refine List.pairwise_cons.2 ⟨fun z hz => ?_, ih h.2⟩
      rcases List.mem_cons.1 ((insertBy_perm before x ys).mem_iff.1 hz) with rfl | hz
      · exact yes _ _ hb
      · exact h.1 z hz
    · rename_i hb
      have hxy := no y x (by simpa using hb)
      refine List.pairwise_cons.2 ⟨fun z hz => ?_, List.pairwise_cons.2 h⟩
      rcases List.mem_cons.1 hz with rfl | hz
      · exact hxy
      · exact trans _ _ _ hxy (h.1 z hz)

/-- The grant order is ordered by any order that `before` decides. -/
theorem grantOrder_pairwise {α : Type} (before : α → α → Bool) (le : α → α → Prop) (yes : ∀ x y, before x y = true → le x y)
    (no : ∀ x y, before x y = false → le y x) (trans : ∀ x y z, le x y → le y z → le x z) (l : List α) :
    (grantOrder before l).Pairwise le := by
  induction l with
  | nil => exact List.Pairwise.nil
  | cons y ys ih => exact insertBy_pairwise before le yes no trans y _ ih

/-- Direct transfers are granted the oldest first. -/
theorem TransferEntry.grantOrder_pairwise (l : List TransferEntry) :
    (grantOrder TransferEntry.before l).Pairwise (fun a b => a.age ≤ b.age) :=
  Machine.grantOrder_pairwise _ _ (by simp only [TransferEntry.before, decide_eq_true_eq]; omega)
    (by simp only [TransferEntry.before, decide_eq_false_iff_not]; omega) (by omega) l

/-- Probe requests are granted by descending priority, the oldest first within one. -/
theorem ProbeEntry.grantOrder_pairwise (l : List ProbeEntry) :
    (grantOrder ProbeEntry.before l).Pairwise
      (fun a b => b.req.priority < a.req.priority ∨ (b.req.priority = a.req.priority ∧ a.age ≤ b.age)) := by
  refine Machine.grantOrder_pairwise _ _ ?_ ?_ ?_ l
  · intro x y h; simp only [ProbeEntry.before, Bool.or_eq_true, decide_eq_true_eq, Bool.and_eq_true, beq_iff_eq] at h; omega
  · intro x y h
    simp only [ProbeEntry.before, Bool.or_eq_false_iff, decide_eq_false_iff_not, Bool.and_eq_false_iff, beq_eq_false_iff_ne]
      at h
    omega
  · intro x y z; omega

/-- An arriving direct transfer is placed with a new age, refused BUSY, or answered PORT_BLOCKED (R90). -/
theorem State.transferArrives_cases (s : State) (p : PortNo) (t : Transfer) :
    ((s.port p).places = true ∧ (s.port p).transfers.length < 8
      ∧ s.transferArrives p t = s.setPort p { s.port p with
          transfers := (s.port p).transfers ++ [{ xfer := t, age := (s.port p).arb.age + 1 }]
          arb := { (s.port p).arb with age := (s.port p).arb.age + 1 } })
    ∨ ((s.port p).places = true ∧ 8 ≤ (s.port p).transfers.length ∧ s.transferArrives p t = s.transferReply p t .busy [] 0)
    ∨ ((s.port p).places = false ∧ s.transferArrives p t = s.transferReply p t .portBlocked [] s.time) := by
  cases hp : (s.port p).places <;> simp only [State.transferArrives, hp]
  · exact .inr (.inr ⟨trivial, rfl⟩)
  · by_cases h : (s.port p).transfers.length < 8
    · exact .inl ⟨trivial, h, if_pos h⟩
    · exact .inr (.inl ⟨trivial, Nat.le_of_not_lt h, if_neg h⟩)

/-- What is issued to a port arbiter and not yet taken has no part in what arrives, and stays. -/
theorem Port.arrive_issues (q : Port) (now : Time) (r : ProbeRequest) (l : List ProbeRequest) :
    Port.arrive { q with arb := { q.arb with issues := l } } now r
      = { q.arrive now r with arb := { (q.arrive now r).arb with issues := l } } := by
  cases h : q.state <;> simp [Port.arrive, Port.places, h, Arbiter.place, Arbiter.hand]

end Sys2Proof.Machine
end

