-- ==== Sys2Proof/Laws/HostLink.lean ====
section
/-! SUPPORT. The operations of the Host Link keep its law, and the end of an exchange as one equation. -/

namespace Sys2Proof.Machine

/-! ### The end of an exchange -/

/-- An exchange that was begun ends with its offer settled and the host's frame taken. -/
theorem exec_exchangeEnd (s : State) (x : Exchange) (sdi : List Byte) (h : s.link.sel = true)
    (hx : s.link.exchange = some x) : exec (.exchangeEnd sdi) s = .next ((s.offerSettled x sdi).takeExchange sdi) := by
  simp only [exec, execExchangeEnd, h, if_true, State.setLink_link, hx]
  rfl

@[simp] theorem Link.settle_state (l : Link) (x : Exchange) (n : Nat) : (l.settle x n).state = l.state := by
  simp only [Link.settle]; split <;> (try split) <;> rfl
@[simp] theorem Link.settle_exchange (l : Link) (x : Exchange) (n : Nat) : (l.settle x n).exchange = none := by
  simp only [Link.settle]; split <;> (try split) <;> rfl
@[simp] theorem Link.settle_accepted (l : Link) (x : Exchange) (n : Nat) : (l.settle x n).accepted = l.accepted := by
  simp only [Link.settle]; split <;> (try split) <;> rfl
@[simp] theorem Link.settle_orphans (l : Link) (x : Exchange) (n : Nat) : (l.settle x n).orphans = l.orphans := by
  simp only [Link.settle]; split <;> (try split) <;> rfl
@[simp] theorem Link.settle_t (l : Link) (x : Exchange) (n : Nat) : (l.settle x n).t = l.t := by
  simp only [Link.settle]; split <;> (try split) <;> rfl
@[simp] theorem Link.settle_e (l : Link) (x : Exchange) (n : Nat) : (l.settle x n).e = l.e := by
  simp only [Link.settle]; split <;> (try split) <;> rfl
@[simp] theorem Link.acknowledge_state (l : Link) (a : Byte) : (l.acknowledge a).state = l.state := by
  simp only [Link.acknowledge]; split <;> rfl
@[simp] theorem Link.resend_state (l : Link) (b : Bool) : (l.resend b).state = l.state := by
  simp only [Link.resend]; split <;> rfl

@[simp] theorem State.offerSettled_state (s : State) (x : Exchange) (sdi : List Byte) :
    (s.offerSettled x sdi).link.state = s.link.state := by simp [State.offerSettled]

/-! ### Sets of requests -/

/-- Taking a held request out of a set makes it one shorter. -/
theorem dropRef_length (set : List ReqRef) (ref : ReqRef) (h : holds set ref = true) :
    (dropRef set ref).length + 1 = set.length := by
  simp only [holds, List.any_eq_true] at h
  obtain ⟨r, hr, hid⟩ := h
  have := List.length_eraseP_of_mem (p := fun r => r.id == ref.id) hr hid
  have hpos := List.length_pos_of_mem hr
  simp only [dropRef]; omega

theorem holds_nil (ref : ReqRef) : holds [] ref = false := rfl
theorem dropRef_nil (ref : ReqRef) : dropRef [] ref = [] := rfl

/-! ### The law is kept -/

theorem sentAt_append (l m : Link) (f : OutFrame) (hq : m.queue = l.queue ++ [f]) (hf : f.sent = false) (k : Nat) :
    m.sentAt k = l.sentAt k := by
  simp only [Link.sentAt, hq]
  rcases Nat.lt_trichotomy k l.queue.length with h | h | h
  · rw [List.getElem?_append_left h]
  · subst h; simp [hf]
  · rw [List.getElem?_eq_none (by simp; omega), List.getElem?_eq_none (by omega)]

theorem offerable_iff (l : Link) (k : Nat) : l.offerable k = true ↔ k < 4 ∧ k < l.queue.length := by
  simp [Link.offerable]

/-- A frame appended within the budget and the event room keeps the law. -/
theorem LinkLaw.append {l : Link} (h : LinkLaw l) (kind : OutKind) (payload : List Byte) (hk : kind ≠ .hello)
    (hu : (l.append kind payload).use ≤ 8) (he : (l.append kind payload).events ≤ 16) :
    LinkLaw (l.append kind payload) where
  budget := hu
  eventRoom := he
  hello := by
    have : OutFrame.isHello { kind := kind, seq := l.t, payload := payload, sent := false } = false := by
      simp [OutFrame.isHello, hk]
    simpa [this] using h.hello
  closedIdle := h.closedIdle
  sentOldest := by
    intro k; rw [sentAt_append l _ _ rfl rfl]
    intro hk; refine ⟨(h.sentOldest k hk).1, fun j hj => ?_⟩
    rw [sentAt_append l _ _ rfl rfl]; exact (h.sentOldest k hk).2 j hj
  passed := by intro k hk; rw [sentAt_append l _ _ rfl rfl]; exact h.passed k hk
  consecutive := by
    intro ho k f hf
    simp only [Link.append_queue, Link.append_t, List.length_append, List.length_singleton] at hf ⊢
    rcases Nat.lt_trichotomy k l.queue.length with hk | hk | hk
    · rw [List.getElem?_append_left hk] at hf
      rw [h.consecutive ho k f hf]
      have : l.queue.length + 1 - k = (l.queue.length - k) + 1 := by omega
      rw [this, BitVec.ofNat_add]
      exact (add_sub_add_right_eq_sub l.t _ 1).symm
    · subst hk
      simp at hf; subst hf; simp
    · rw [List.getElem?_eq_none (by simp; omega)] at hf; simp at hf
  offered := by
    intro x hx hq
    obtain ⟨h1, h2⟩ := h.offered x hx hq
    refine ⟨h1, ?_⟩
    rw [offerable_iff] at h2 ⊢
    simp only [Link.append_cursor, Link.append_queue, List.length_append, List.length_singleton]; omega
  attention := rfl

/-- The law reads nothing of a link but these fields. -/
theorem LinkLaw.congr {l m : Link} (h : LinkLaw l) (hs : m.state = l.state) (hq : m.queue = l.queue)
    (hc : m.cursor = l.cursor) (ha : m.accepted = l.accepted) (ho : m.state = .closed → m.orphans = [])
    (ht : m.t = l.t) (hx : m.exchange = l.exchange) (hat : m.attn = l.attn) : LinkLaw m where
  budget := by simpa [Link.use, hq, ha] using h.budget
  eventRoom := by simpa [Link.events, hq] using h.eventRoom
  hello := by rw [hq, hs]; exact h.hello
  closedIdle := fun hcl => ⟨by rw [ha]; exact (h.closedIdle (hs ▸ hcl)).1, ho hcl⟩
  sentOldest := by
    have : ∀ k, m.sentAt k = l.sentAt k := fun k => by simp [Link.sentAt, hq]
    intro k; rw [this]; intro hk
    exact ⟨(h.sentOldest k hk).1, fun j hj => by rw [this]; exact (h.sentOldest k hk).2 j hj⟩
  passed := by
    have : ∀ k, m.sentAt k = l.sentAt k := fun k => by simp [Link.sentAt, hq]
    intro k hk; rw [this]; exact h.passed k (hc ▸ hk)
  consecutive := by rw [hq, ht, hs]; exact h.consecutive
  offered := by
    intro x hxx hxq
    have := h.offered x (hx ▸ hxx) hxq
    simp only [Link.offerable, hs, hq, hc] at this ⊢; exact this
  attention := by
    rw [hat, h.attention]; simp only [Link.attnDue, Link.offerable, hs, hq, hc]

/-- A reply keeps the law: a request of the accepted set becomes a REPLY frame, or an orphan's reply is discarded. -/
theorem LinkLaw.reply {l : Link} (h : LinkLaw l) (ref : ReqRef) (body : List Byte) : LinkLaw (l.reply ref body) := by
  rcases l.reply_cases ref body with ⟨hh, he⟩ | ⟨hh, he⟩ <;> rw [he]
  · have hlen := dropRef_length _ _ hh
    have hb := h.budget
    have hl : LinkLaw { l with accepted := dropRef l.accepted ref } :=
      { budget := by simp only [Link.use] at hb ⊢; omega
        eventRoom := h.eventRoom
        hello := h.hello
        closedIdle := fun hc => by
          have := (h.closedIdle hc).1
          rw [this] at hh; simp [holds] at hh
        sentOldest := h.sentOldest, passed := h.passed, consecutive := h.consecutive, offered := h.offered
        attention := h.attention }
    apply hl.append
    · simp
    · have e : OutFrame.isReply { kind := OutKind.reply ref.replyKind, seq := l.t, payload := ref.seq :: body, sent := false } = true := rfl
      simp only [Link.use, Link.append_queue, Link.append_accepted, List.countP_append, List.countP_singleton, e] at hb ⊢
      simp only [if_true]; omega
    · have e : OutFrame.isEvent { kind := OutKind.reply ref.replyKind, seq := l.t, payload := ref.seq :: body, sent := false } = false := rfl
      simpa [Link.events, e] using h.eventRoom
  · refine h.congr rfl rfl rfl rfl (fun hc => ?_) rfl rfl rfl
    simp only; rw [(h.closedIdle hc).2]; rfl

/-- An event frame is no reply and no HELLO. -/
def OutKind.isEventKind : OutKind → Bool
  | .pass | .watch | .health | .halt => true
  | .reply _ | .hello => false

/-- An offered event keeps the law. -/
theorem LinkLaw.offerEvent {s : State} (h : LinkLaw s.link) (kind : OutKind) (items : List Byte)
    (hk : kind.isEventKind = true) : LinkLaw (s.offerEvent kind items).link := by
  rcases s.offerEvent_cases kind items with ⟨hr, he⟩ | ⟨hr, he⟩ <;> rw [he]
  · have hb := h.budget
    apply h.append
    · intro e; simp [e, OutKind.isEventKind] at hk
    · have e : OutFrame.isReply { kind := kind, seq := s.link.t, payload := byteOf s.dropped :: items, sent := false } = false := by
        cases kind <;> simp_all [OutKind.isEventKind, OutFrame.isReply]
      simpa [Link.use, e] using hb
    · simp only [Link.events, Link.append_queue, List.countP_append, List.countP_singleton] at hr ⊢
      split <;> omega
  · exact h

/-- Answers to waiters keep the law. -/
theorem LinkLaw.answerWaiters {s : State} (h : LinkLaw s.link) (sel : Waiter → Bool) (st : Status)
    (items : Waiter → List Byte) : LinkLaw (s.answerWaiters sel st items).link := by
  rw [State.answerWaiters_eq]
  have : ∀ (ws : List Waiter) (l : Link), LinkLaw l →
      LinkLaw (ws.foldl (fun l w => l.reply w.ref (st.code :: items w)) l) := by
    intro ws; induction ws with
    | nil => intro l hl; exact hl
    | cons w ws ih => intro l hl; exact ih _ (hl.reply _ _)
  exact this _ _ h

/-- A link whose exchange is over keeps the law. -/
theorem LinkLaw.endExchange {l : Link} (h : LinkLaw l) : LinkLaw { l with sel := false, exchange := none } where
  budget := h.budget
  eventRoom := h.eventRoom
  hello := h.hello
  closedIdle := h.closedIdle
  sentOldest := h.sentOldest
  passed := h.passed
  consecutive := h.consecutive
  offered := by intro x hx; simp at hx
  attention := h.attention

theorem sentAt_lt {l : Link} {k : Nat} (h : l.sentAt k = true) : k < l.queue.length := by
  by_contra hn
  simp [Link.sentAt, List.getElem?_eq_none (Nat.le_of_not_lt hn)] at h

/-- The frame at an offerable cursor marked sent, and the cursor advanced, keeps the law. -/
theorem LinkLaw.markSent {l : Link} (h : LinkLaw l) (f : OutFrame) (hf : l.queue[l.cursor]? = some f)
    (ho : l.state = .opened) (hc : l.offerable l.cursor = true) (hx : l.exchange = none) :
    LinkLaw (Link.refresh { l with
      queue := l.queue.set l.cursor { f with sent := true }, cursor := l.cursor + 1 }) := by
  rw [offerable_iff] at hc
  have hcount : ∀ p : OutFrame → Bool, p { f with sent := true } = p f →
      (l.queue.set l.cursor { f with sent := true }).countP p = l.queue.countP p := by
    intro p hp
    have hg : l.queue[l.cursor] = f := by
      rw [List.getElem?_eq_getElem hc.2] at hf; exact Option.some.inj hf
    rw [List.countP_set hc.2, hg, hp]
    have : p f = true → 0 < l.queue.countP p := fun hpf => List.countP_pos_iff.2 ⟨f, hg ▸ List.getElem_mem _, hpf⟩
    by_cases hpf : p f = true
    · have := this hpf; simp only [hpf, if_true]; omega
    · simp [hpf]
  have hsent : ∀ k, Link.sentAt { l with
      queue := l.queue.set l.cursor { f with sent := true }, cursor := l.cursor + 1 } k
        = (decide (k = l.cursor) || l.sentAt k) := by
    intro k
    simp only [Link.sentAt]
    by_cases hk : k = l.cursor
    · subst hk; simp [hc.2]
    · rw [List.getElem?_set_ne (fun e => hk e.symm)]; simp [hk]
  have hall : ∀ j, j < l.cursor → l.sentAt j = true := h.passed
  exact {
    budget := by
      have hb := h.budget
      simp only [Link.use, Link.refresh_queue, Link.refresh_accepted] at hb ⊢
      rw [hcount _ rfl]; exact hb
    eventRoom := by
      have hb := h.eventRoom
      simp only [Link.events, Link.refresh_queue] at hb ⊢
      rw [hcount _ rfl]; exact hb
    hello := by
      have hb := h.hello
      simp only [Link.refresh_queue, Link.refresh_state] at hb ⊢
      rw [hcount _ rfl]; exact hb
    closedIdle := fun hcl => by simp only [Link.refresh_state] at hcl; rw [ho] at hcl; exact absurd hcl (by decide)
    sentOldest := by
      intro k hk
      have hk' : (decide (k = l.cursor) || l.sentAt k) = true := (hsent k) ▸ hk
      have goal : k < 4 ∧ ∀ j, j < k → (decide (j = l.cursor) || l.sentAt j) = true := by
        simp only [Bool.or_eq_true, decide_eq_true_eq] at hk' ⊢
        rcases hk' with rfl | hk'
        · exact ⟨hc.1, fun j hj => .inr (hall j hj)⟩
        · exact ⟨(h.sentOldest k hk').1, fun j hj => .inr ((h.sentOldest k hk').2 j hj)⟩
      exact ⟨goal.1, fun j hj => (hsent j).trans (goal.2 j hj)⟩
    passed := by
      intro k hk
      simp only [Link.refresh_cursor] at hk
      refine (hsent k).trans ?_
      simp only [Bool.or_eq_true, decide_eq_true_eq]
      rcases Nat.lt_or_ge k l.cursor with hk' | hk'
      · exact .inr (hall k hk')
      · exact .inl (by omega)
    consecutive := by
      intro _ k g hg
      simp only [Link.refresh_queue, Link.refresh_t, List.length_set] at hg ⊢
      by_cases hk : k = l.cursor
      · subst hk
        rw [List.getElem?_set_self hc.2] at hg
        have := Option.some.inj hg
        subst this
        exact h.consecutive ho _ f hf
      · rw [List.getElem?_set_ne (fun e => hk e.symm)] at hg
        exact h.consecutive ho k g hg
    offered := by intro x hx'; simp only [Link.refresh_exchange] at hx'; rw [hx] at hx'; simp at hx'
    attention := rfl }

/-- The settling of an offer keeps the law. -/
theorem LinkLaw.settle {l : Link} (h : LinkLaw l) (x : Exchange) (n : Nat) (hx : l.exchange = some x) :
    LinkLaw (Link.settle { l with sel := false } x n) := by
  have hl := h.endExchange
  simp only [Link.settle]
  split
  · rename_i hq
    obtain ⟨h1, h2⟩ := h.offered x hx hq.1
    split
    · rename_i f hf
      exact hl.markSent f hf h1 h2 rfl
    · exact hl
  · exact hl

/-- A retirement keeps the law. -/
theorem LinkLaw.acknowledge {l : Link} (h : LinkLaw l) (hx : l.exchange = none) (a : Byte) : LinkLaw (l.acknowledge a) := by
  simp only [Link.acknowledge]
  split
  · exact h
  · rename_i k hk
    have hs : ∀ j, Link.sentAt { l with queue := l.queue.drop (k + 1), cursor := l.cursor - (k + 1) } j
        = l.sentAt (j + (k + 1)) := by
      intro j; simp only [Link.sentAt, List.getElem?_drop]; rw [Nat.add_comm]
    have hle : ∀ p : OutFrame → Bool, (l.queue.drop (k + 1)).countP p ≤ l.queue.countP p :=
      fun p => (List.drop_sublist _ _).countP_le
    exact {
      budget := by
        have := h.budget; have := hle OutFrame.isReply
        simp only [Link.use, Link.refresh_queue, Link.refresh_accepted] at *; omega
      eventRoom := by
        have := h.eventRoom; have := hle OutFrame.isEvent
        simp only [Link.events, Link.refresh_queue] at *; omega
      hello := le_trans (hle _) h.hello
      closedIdle := h.closedIdle
      sentOldest := by
        intro j hj
        have hj' := (hs j) ▸ hj
        obtain ⟨h1, h2⟩ := h.sentOldest _ hj'
        exact ⟨by omega, fun i hi => (hs i).trans (h2 _ (by omega))⟩
      passed := by
        intro j hj
        simp only [Link.refresh_cursor] at hj
        exact (hs j).trans (h.passed _ (by omega))
      consecutive := by
        intro ho j f hf
        simp only [Link.refresh_queue, Link.refresh_t, List.getElem?_drop, List.length_drop] at hf ⊢
        rw [h.consecutive ho _ f hf]
        congr 2; omega
      offered := by intro x hx'; simp only [Link.refresh_exchange] at hx'; rw [hx] at hx'; simp at hx'
      attention := rfl }

/-- RESEND keeps the law. -/
theorem LinkLaw.resend {l : Link} (h : LinkLaw l) (hx : l.exchange = none) (b : Bool) : LinkLaw (l.resend b) := by
  simp only [Link.resend]
  split
  · exact {
      budget := h.budget, eventRoom := h.eventRoom, hello := h.hello, closedIdle := h.closedIdle
      sentOldest := h.sentOldest
      passed := by intro k hk; simp at hk
      consecutive := h.consecutive
      offered := by intro x hx'; simp only [Link.refresh_exchange] at hx'; rw [hx] at hx'; simp at hx'
      attention := rfl }
  · exact h

/-- A link started by an OPEN frame keeps the law. -/
theorem LinkLaw.start (l : Link) (seq : Byte) (reason : Reason) (orphans : Nat) (ha : l.accepted = [])
    (hx : l.exchange = none) : LinkLaw (l.start seq reason orphans) where
  budget := by simp [Link.start, Link.use, ha, OutFrame.isReply]
  eventRoom := by simp [Link.start, Link.events, OutFrame.isEvent]
  hello := by simp [Link.start, OutFrame.isHello]
  closedIdle := by intro h; simp [Link.start] at h
  sentOldest := by
    intro k hk
    have := sentAt_lt hk
    simp [Link.start] at this; subst this
    simp [Link.start, Link.sentAt] at hk
  passed := by intro k hk; simp [Link.start] at hk
  consecutive := by
    intro _ k f hf
    rcases k with _ | k
    · simp [Link.start] at hf; subst hf; simp [Link.start]
    · simp [Link.start] at hf
  offered := by intro x hx'; simp [Link.start, hx] at hx'
  attention := rfl

/-- The link after a device reset keeps the law, whatever the pins. -/
theorem LinkLaw.reset (r : Reason) (sel nrst : Bool) : LinkLaw { Link.reset r with sel := sel, nrst := nrst } where
  budget := by simp [Link.use, Link.reset, OutFrame.hello, OutFrame.isReply]
  eventRoom := by simp [Link.events, Link.reset, OutFrame.hello, OutFrame.isEvent]
  hello := by simp [Link.reset, OutFrame.hello, OutFrame.isHello]
  closedIdle := fun _ => ⟨rfl, rfl⟩
  sentOldest := by
    intro k hk
    have := sentAt_lt hk
    simp [Link.reset] at this; subst this
    simp [Link.reset, Link.sentAt, OutFrame.hello] at hk
  passed := by intro k hk; simp [Link.reset] at hk
  consecutive := by intro h; simp [Link.reset] at h
  offered := by intro x hx; simp [Link.reset] at hx
  attention := rfl

/-- The offer chosen at the assertion of SEL is that of the law. -/
theorem Link.choose_queued (l : Link) (h : l.choose.queued = true) : l.state = .opened ∧ l.offerable l.cursor = true := by
  cases hs : l.state <;> simp only [Link.choose, hs] at h
  · split at h <;> simp at h
  · refine ⟨rfl, ?_⟩
    split at h
    · assumption
    · simp at h

/-- An accepted request keeps the law. -/
theorem LinkLaw.accept {l : Link} (h : LinkLaw l) (ref : ReqRef) (hu : l.use < 8) (ho : l.state = .opened) :
    LinkLaw (l.accept ref) where
  budget := by simp only [Link.use, Link.accept, List.length_append, List.length_singleton] at hu ⊢; omega
  eventRoom := h.eventRoom
  hello := h.hello
  closedIdle := fun hc => by rw [show (l.accept ref).state = l.state from rfl, ho] at hc; exact absurd hc (by decide)
  sentOldest := h.sentOldest
  passed := h.passed
  consecutive := h.consecutive
  offered := h.offered
  attention := h.attention

end Sys2Proof.Machine
end

