-- ==== Sys2Proof/Laws/SweepEngine.lean ====
section
/-! SUPPORT. What issuing, starting and abandoning a pass, and a withdrawal leave as it stands. -/

namespace Sys2Proof.Machine

variable (s : State) (i : SweepNo) (d : SweepDef)

/-! ### Arbiters of resources -/

@[simp] theorem State.setArb_link (r : Resource) (a : Arbiter) : (s.setArb r a).link = s.link := by cases r <;> rfl
@[simp] theorem State.setArb_waiters (r : Resource) (a : Arbiter) : (s.setArb r a).waiters = s.waiters := by cases r <;> rfl
@[simp] theorem State.setArb_slots (r : Resource) (a : Arbiter) : (s.setArb r a).slots = s.slots := by cases r <;> rfl
@[simp] theorem State.setArb_watches (r : Resource) (a : Arbiter) : (s.setArb r a).watches = s.watches := by cases r <;> rfl
@[simp] theorem State.setArb_dropped (r : Resource) (a : Arbiter) : (s.setArb r a).dropped = s.dropped := by cases r <;> rfl
@[simp] theorem State.setArb_inbox (r : Resource) (a : Arbiter) : (s.setArb r a).inbox = s.inbox := by cases r <;> rfl
@[simp] theorem State.setArb_hand (r : Resource) (a : Arbiter) : (s.setArb r a).hand = s.hand := by cases r <;> rfl
@[simp] theorem State.setArb_time (r : Resource) (a : Arbiter) : (s.setArb r a).time = s.time := by cases r <;> rfl
@[simp] theorem State.setArb_pending (r : Resource) (a : Arbiter) : (s.setArb r a).pending = s.pending := by cases r <;> rfl
@[simp] theorem State.setArb_free (r : Resource) (a : Arbiter) : (s.setArb r a).free = s.free := by cases r <;> rfl
@[simp] theorem State.setArb_sweeps (r : Resource) (a : Arbiter) : (s.setArb r a).sweeps = s.sweeps := by cases r <;> rfl
@[simp] theorem State.setArb_pages (r : Resource) (a : Arbiter) : (s.setArb r a).pages = s.pages := by cases r <;> rfl
@[simp] theorem State.setArb_sweep (r : Resource) (a : Arbiter) (j : SweepNo) : (s.setArb r a).sweep j = s.sweep j := by
  cases r <;> rfl
@[simp] theorem State.setArb_pagesOf (r : Resource) (a : Arbiter) (j : SweepNo) : (s.setArb r a).pagesOf j = s.pagesOf j := by
  cases r <;> rfl
@[simp] theorem State.setArb_slot (r : Resource) (a : Arbiter) (k : Fin 64) : (s.setArb r a).slot k = s.slot k := by
  cases r <;> rfl
@[simp] theorem State.setArb_arb (r : Resource) (a : Arbiter) : (s.setArb r a).arb r = a := by
  cases r <;> simp [State.setArb, State.arb]
theorem State.setArb_arb_ne (r q : Resource) (a : Arbiter) (h : q ≠ r) : (s.setArb r a).arb q = s.arb q := by
  cases r <;> cases q <;> simp_all [State.setArb, State.arb, State.setPort_port_ne]

/-! ### Issue -/

/-- An issue appends at most one request to the issues of one arbiter. -/
theorem State.issue_cases (k : Fin 16) :
    s.issue i d k = s ∨ ∃ r a, s.issue i d k = s.setArb r a := by
  simp only [State.issue]; split
  · exact .inl rfl
  · split
    · exact .inl rfl
    · exact .inr ⟨_, _, rfl⟩

@[simp] theorem State.issue_link (k : Fin 16) : (s.issue i d k).link = s.link := by
  rcases s.issue_cases i d k with h | ⟨_, _, h⟩ <;> simp [h]
@[simp] theorem State.issue_waiters (k : Fin 16) : (s.issue i d k).waiters = s.waiters := by
  rcases s.issue_cases i d k with h | ⟨_, _, h⟩ <;> simp [h]
@[simp] theorem State.issue_slots (k : Fin 16) : (s.issue i d k).slots = s.slots := by
  rcases s.issue_cases i d k with h | ⟨_, _, h⟩ <;> simp [h]
@[simp] theorem State.issue_watches (k : Fin 16) : (s.issue i d k).watches = s.watches := by
  rcases s.issue_cases i d k with h | ⟨_, _, h⟩ <;> simp [h]
@[simp] theorem State.issue_dropped (k : Fin 16) : (s.issue i d k).dropped = s.dropped := by
  rcases s.issue_cases i d k with h | ⟨_, _, h⟩ <;> simp [h]
@[simp] theorem State.issue_inbox (k : Fin 16) : (s.issue i d k).inbox = s.inbox := by
  rcases s.issue_cases i d k with h | ⟨_, _, h⟩ <;> simp [h]
@[simp] theorem State.issue_hand (k : Fin 16) : (s.issue i d k).hand = s.hand := by
  rcases s.issue_cases i d k with h | ⟨_, _, h⟩ <;> simp [h]
@[simp] theorem State.issue_time (k : Fin 16) : (s.issue i d k).time = s.time := by
  rcases s.issue_cases i d k with h | ⟨_, _, h⟩ <;> simp [h]
@[simp] theorem State.issue_pending (k : Fin 16) : (s.issue i d k).pending = s.pending := by
  rcases s.issue_cases i d k with h | ⟨_, _, h⟩ <;> simp [h]
@[simp] theorem State.issue_free (k : Fin 16) : (s.issue i d k).free = s.free := by
  rcases s.issue_cases i d k with h | ⟨_, _, h⟩ <;> simp [h]
@[simp] theorem State.issue_sweeps (k : Fin 16) : (s.issue i d k).sweeps = s.sweeps := by
  rcases s.issue_cases i d k with h | ⟨_, _, h⟩ <;> simp [h]
@[simp] theorem State.issue_pages (k : Fin 16) : (s.issue i d k).pages = s.pages := by
  rcases s.issue_cases i d k with h | ⟨_, _, h⟩ <;> simp [h]

@[simp] theorem State.issueAll_link (l : List (Fin 16)) : (s.issueAll i d l).link = s.link := by
  induction l generalizing s with
  | nil => rfl
  | cons k l ih => exact (ih (s.issue i d k)).trans (by simp)
@[simp] theorem State.issueAll_waiters (l : List (Fin 16)) : (s.issueAll i d l).waiters = s.waiters := by
  induction l generalizing s with
  | nil => rfl
  | cons k l ih => exact (ih (s.issue i d k)).trans (by simp)
@[simp] theorem State.issueAll_slots (l : List (Fin 16)) : (s.issueAll i d l).slots = s.slots := by
  induction l generalizing s with
  | nil => rfl
  | cons k l ih => exact (ih (s.issue i d k)).trans (by simp)
@[simp] theorem State.issueAll_watches (l : List (Fin 16)) : (s.issueAll i d l).watches = s.watches := by
  induction l generalizing s with
  | nil => rfl
  | cons k l ih => exact (ih (s.issue i d k)).trans (by simp)
@[simp] theorem State.issueAll_dropped (l : List (Fin 16)) : (s.issueAll i d l).dropped = s.dropped := by
  induction l generalizing s with
  | nil => rfl
  | cons k l ih => exact (ih (s.issue i d k)).trans (by simp)
@[simp] theorem State.issueAll_inbox (l : List (Fin 16)) : (s.issueAll i d l).inbox = s.inbox := by
  induction l generalizing s with
  | nil => rfl
  | cons k l ih => exact (ih (s.issue i d k)).trans (by simp)
@[simp] theorem State.issueAll_hand (l : List (Fin 16)) : (s.issueAll i d l).hand = s.hand := by
  induction l generalizing s with
  | nil => rfl
  | cons k l ih => exact (ih (s.issue i d k)).trans (by simp)
@[simp] theorem State.issueAll_time (l : List (Fin 16)) : (s.issueAll i d l).time = s.time := by
  induction l generalizing s with
  | nil => rfl
  | cons k l ih => exact (ih (s.issue i d k)).trans (by simp)
@[simp] theorem State.issueAll_pending (l : List (Fin 16)) : (s.issueAll i d l).pending = s.pending := by
  induction l generalizing s with
  | nil => rfl
  | cons k l ih => exact (ih (s.issue i d k)).trans (by simp)
@[simp] theorem State.issueAll_free (l : List (Fin 16)) : (s.issueAll i d l).free = s.free := by
  induction l generalizing s with
  | nil => rfl
  | cons k l ih => exact (ih (s.issue i d k)).trans (by simp)
@[simp] theorem State.issueAll_sweeps (l : List (Fin 16)) : (s.issueAll i d l).sweeps = s.sweeps := by
  induction l generalizing s with
  | nil => rfl
  | cons k l ih => exact (ih (s.issue i d k)).trans (by simp)
@[simp] theorem State.issueAll_pages (l : List (Fin 16)) : (s.issueAll i d l).pages = s.pages := by
  induction l generalizing s with
  | nil => rfl
  | cons k l ih => exact (ih (s.issue i d k)).trans (by simp)

/-! ### Issue, whole -/

/-- The state with requests issued to the arbiters, those of resource `r` being `q r`, at the end of what was issued. -/
def State.issued (q : Resource → List ProbeRequest) : State :=
  { s with
    ports := Vector.ofFn fun p => { s.port p with
      arb := { (s.port p).arb with issues := (s.port p).arb.issues ++ q (.tw p) } }
    conv := { s.conv with arb := { s.conv.arb with issues := s.conv.arb.issues ++ q .analog } } }

theorem State.ports_eta : Vector.ofFn (fun p => s.port p) = s.ports := by
  ext k hk; simp [State.port]

theorem State.issued_nil (q : Resource → List ProbeRequest) (h : ∀ r, q r = []) : s.issued q = s := by
  simp only [State.issued, h, List.append_nil]
  exact congrArg (fun v => ({ s with ports := v } : State)) s.ports_eta

theorem State.issued_issued (q q' : Resource → List ProbeRequest) :
    (s.issued q).issued q' = s.issued (fun r => q r ++ q' r) := by
  simp [State.issued, State.port]

theorem State.setArb_issued (r : Resource) (x : ProbeRequest) :
    s.setArb r { s.arb r with issues := (s.arb r).issues ++ [x] } = s.issued (fun q => if q = r then [x] else []) := by
  cases r with
  | tw p =>
    simp only [State.setArb, State.setPort, State.issued, State.arb]
    refine congrArg₂ (fun v c => ({ s with ports := v, conv := c } : State)) ?_ (by simp)
    ext k hk
    by_cases h : k = p.val
    · subst h; simp [State.port]
    · have h' : (⟨k, hk⟩ : Fin 3) ≠ p := fun e => h (by simp [← e])
      have h'' : ¬ p.val = k := fun e => h e.symm
      simp [State.port, h', h'']
  | analog =>
    simp only [State.setArb, State.setConv, State.issued, State.arb]
    refine congrArg₂ (fun v c => ({ s with ports := v, conv := c } : State)) ?_ (by simp)
    rw [← s.ports_eta]; simp [State.port]

/-- The request that an issue for position `k` hands to the arbiter of `r` (R48). -/
def State.requestAt (k : Fin 16) (r : Resource) : Option ProbeRequest :=
  match d.list[k.val]? with
  | none => none
  | some slot =>
    match (s.slot slot).record with
    | none => none
    | some copy =>
      if copy.resource = r then
        some { sweep := i, position := k, pass := (s.sweep i).started, slot := slot, copy := copy, priority := d.priority }
      else none

theorem State.issue_eq (k : Fin 16) : s.issue i d k = s.issued (fun r => (s.requestAt i d k r).toList) := by
  cases hl : d.list[k.val]? with
  | none => simp only [State.issue, State.requestAt, hl]; exact (s.issued_nil _ fun _ => rfl).symm
  | some slot =>
    cases hr : (s.slot slot).record with
    | none => simp only [State.issue, State.requestAt, hl, hr]; exact (s.issued_nil _ fun _ => rfl).symm
    | some copy =>
      simp only [State.issue, State.requestAt, hl, hr, State.setArb_issued]
      congr 1; funext r
      by_cases h : r = copy.resource
      · simp [h]
      · simp [h, Ne.symm h]

/-- What issuing requests for the positions of a list does, whole: each arbiter receives its own, in list order. -/
theorem State.issueAll_eq (l : List (Fin 16)) :
    s.issueAll i d l = s.issued (fun r => l.filterMap (fun k => s.requestAt i d k r)) := by
  induction l generalizing s with
  | nil => exact (s.issued_nil _ (by simp)).symm
  | cons k l ih =>
    have h : s.issueAll i d (k :: l) = (s.issue i d k).issueAll i d l := rfl
    rw [h, ih, s.issue_eq, State.issued_issued]
    congr 1; funext r
    have : ∀ q, (fun j => (s.issued q).requestAt i d j r) = (fun j => s.requestAt i d j r) := fun _ => rfl
    rw [this, List.filterMap_cons]; cases s.requestAt i d k r <;> simp

/-! ### Withdrawal -/

@[simp] theorem State.withdraw_link : (s.withdraw i).link = s.link := rfl
@[simp] theorem State.withdraw_waiters : (s.withdraw i).waiters = s.waiters := rfl
@[simp] theorem State.withdraw_slots : (s.withdraw i).slots = s.slots := rfl
@[simp] theorem State.withdraw_watches : (s.withdraw i).watches = s.watches := rfl
@[simp] theorem State.withdraw_dropped : (s.withdraw i).dropped = s.dropped := rfl
@[simp] theorem State.withdraw_inbox : (s.withdraw i).inbox = s.inbox := rfl
@[simp] theorem State.withdraw_hand : (s.withdraw i).hand = s.hand := rfl
@[simp] theorem State.withdraw_time : (s.withdraw i).time = s.time := rfl
@[simp] theorem State.withdraw_pending : (s.withdraw i).pending = s.pending := rfl
@[simp] theorem State.withdraw_free : (s.withdraw i).free = s.free := rfl
@[simp] theorem State.withdraw_sweeps : (s.withdraw i).sweeps = s.sweeps := rfl
@[simp] theorem State.withdraw_pages : (s.withdraw i).pages = s.pages := rfl

/-! ### Starting and abandoning a pass -/

@[simp] theorem State.beginPass_link : (s.beginPass i d).link = s.link := by simp [State.beginPass]
@[simp] theorem State.beginPass_waiters : (s.beginPass i d).waiters = s.waiters := by simp [State.beginPass]
@[simp] theorem State.beginPass_slots : (s.beginPass i d).slots = s.slots := by simp [State.beginPass]
@[simp] theorem State.beginPass_watches : (s.beginPass i d).watches = s.watches := by simp [State.beginPass]
@[simp] theorem State.beginPass_dropped : (s.beginPass i d).dropped = s.dropped := by simp [State.beginPass]
@[simp] theorem State.beginPass_inbox : (s.beginPass i d).inbox = s.inbox := by simp [State.beginPass]
@[simp] theorem State.beginPass_hand : (s.beginPass i d).hand = s.hand := by simp [State.beginPass]
@[simp] theorem State.beginPass_time : (s.beginPass i d).time = s.time := by simp [State.beginPass]
@[simp] theorem State.beginPass_pending : (s.beginPass i d).pending = s.pending := by simp [State.beginPass]
@[simp] theorem State.beginPass_free : (s.beginPass i d).free = s.free := by simp [State.beginPass]
@[simp] theorem State.startPass_link : (s.startPass i d).link = s.link := by simp [State.startPass]
@[simp] theorem State.startPass_waiters : (s.startPass i d).waiters = s.waiters := by simp [State.startPass]
@[simp] theorem State.startPass_slots : (s.startPass i d).slots = s.slots := by simp [State.startPass]
@[simp] theorem State.startPass_watches : (s.startPass i d).watches = s.watches := by simp [State.startPass]
@[simp] theorem State.startPass_dropped : (s.startPass i d).dropped = s.dropped := by simp [State.startPass]
@[simp] theorem State.startPass_inbox : (s.startPass i d).inbox = s.inbox := by simp [State.startPass]
@[simp] theorem State.startPass_hand : (s.startPass i d).hand = s.hand := by simp [State.startPass]
@[simp] theorem State.startPass_time : (s.startPass i d).time = s.time := by simp [State.startPass]
@[simp] theorem State.startPass_pending : (s.startPass i d).pending = s.pending := by simp [State.startPass]
@[simp] theorem State.startPass_free : (s.startPass i d).free = s.free := by simp [State.startPass]
@[simp] theorem State.abandonPass_link : (s.abandonPass i d).link = s.link := by simp [State.abandonPass]
@[simp] theorem State.abandonPass_waiters : (s.abandonPass i d).waiters = s.waiters := by simp [State.abandonPass]
@[simp] theorem State.abandonPass_slots : (s.abandonPass i d).slots = s.slots := by simp [State.abandonPass]
@[simp] theorem State.abandonPass_watches : (s.abandonPass i d).watches = s.watches := by simp [State.abandonPass]
@[simp] theorem State.abandonPass_dropped : (s.abandonPass i d).dropped = s.dropped := by simp [State.abandonPass]
@[simp] theorem State.abandonPass_inbox : (s.abandonPass i d).inbox = s.inbox := by simp [State.abandonPass]
@[simp] theorem State.abandonPass_hand : (s.abandonPass i d).hand = s.hand := by simp [State.abandonPass]
@[simp] theorem State.abandonPass_time : (s.abandonPass i d).time = s.time := by simp [State.abandonPass]
@[simp] theorem State.abandonPass_pending : (s.abandonPass i d).pending = s.pending := by simp [State.abandonPass]
@[simp] theorem State.abandonPass_free : (s.abandonPass i d).free = s.free := by simp [State.abandonPass]

/-! ### Triggers -/

/-- A trigger is ignored, starts a pass, abandons one, or is counted missed; an ARMED sweep that has no pass number left
then leaves its state. -/
theorem State.trigger_cases :
    s.trigger i = s
    ∨ (∃ d, (s.sweep i).state = .armed ∧ (s.sweep i).defn = some d ∧ s.trigger i = s.startPass i d)
    ∨ (∃ d, (s.sweep i).state = .running ∧ (s.sweep i).defn = some d ∧ d.overrun = .restart
        ∧ s.trigger i = s.abandonPass i d)
    ∨ (∃ d, (s.sweep i).state = .running ∧ (s.sweep i).defn = some d ∧ s.trigger i = s.countMissed i)
    ∨ (∃ d, (s.sweep i).state = .armed ∧ (s.sweep i).defn = some d
        ∧ s.trigger i = ((s.countMissed i).setSweep i { (s.countMissed i).sweep i with state := .idle }).leave i) := by
  by_cases he : (s.sweep i).exhausted = true <;> cases hs : (s.sweep i).state <;> cases hd : (s.sweep i).defn
    <;> simp only [State.trigger, State.triggerOutcome, hs, hd] <;> try exact .inl trivial
  all_goals rename_i d
  all_goals try cases ho : d.overrun
  all_goals first | (simp [he]; done) | (simp [he]; exact .inr (.inl ‹_›))

end Sys2Proof.Machine
end

