-- ==== Sys2Proof/Laws/WatchUnit.lean ====
section
/-! SUPPORT. What the Watch Unit can do, said once: whatever it takes, it changes the link, the watch slots and the
dropped-event count only. -/

namespace Sys2Proof.Machine

variable (s : State)

/-- `t` is `s` but for the link, the watch slots, the dropped-event count and the inbox. -/
def State.WatchFrame (s t : State) : Prop :=
  t = { s with link := t.link, watches := t.watches, dropped := t.dropped, inbox := t.inbox }

theorem State.WatchFrame.trans {s t u : State} (h : s.WatchFrame t) (k : t.WatchFrame u) : s.WatchFrame u := by
  rw [State.WatchFrame] at *; rw [k, h]

theorem State.watchFrame_setWatch (k : Fin 64) (w : WatchSlot) : s.WatchFrame (s.setWatch k w) := rfl
theorem State.watchFrame_setInbox (l : List WatchItem) : s.WatchFrame (s.setInbox l) := rfl

theorem State.watchFrame_offerEvent (kind : OutKind) (items : List Byte) : s.WatchFrame (s.offerEvent kind items) := by
  rcases s.offerEvent_cases kind items with ⟨_, h⟩ | ⟨_, h⟩ <;> rw [h] <;> rfl

theorem State.watchFrame_takeCopy (c : Completion) : s.WatchFrame (s.takeCopy c) := by
  simp only [State.takeCopy]; split
  · have h : ∀ (t : State), s.WatchFrame t → s.WatchFrame (match c.req.copy.watch with
        | none => t
        | some part => t.evaluateCopy c part) := by
      intro t ht
      cases c.req.copy.watch with
      | none => exact ht
      | some part =>
        simp only [State.evaluateCopy]; split
        · exact ht.trans (State.watchFrame_setWatch _ _ _)
        · exact (ht.trans (State.watchFrame_setWatch _ _ _)).trans (State.watchFrame_offerEvent _ _ _)
    refine h _ ?_
    split
    · exact (State.watchFrame_setWatch _ _ _).trans (State.watchFrame_offerEvent _ _ _)
    · rfl
  · simp only [State.faultCopy]
    by_cases h : (s.watch c.req.slot).health = .good ∧
        (if (s.watch c.req.slot).faults = c.req.copy.faultLimit then (s.watch c.req.slot).faults
          else (s.watch c.req.slot).faults + 1) = c.req.copy.faultLimit
    · rw [if_pos h]; exact (State.watchFrame_setWatch _ _ _).trans (State.watchFrame_offerEvent _ _ _)
    · rw [if_neg h]; rfl

theorem State.watchFrame_takeItem (x : WatchItem) : s.WatchFrame (s.takeItem x) := by
  cases x with
  | copy c => exact s.watchFrame_takeCopy c
  | request r =>
    simp only [State.takeItem]; split
    · simp only [State.watchGet]; split <;> rfl
    · simp only [State.watchReset]; split <;> rfl
    · rfl

/-- What has reached the Watch Unit and is not yet taken has no part in what it takes. -/
theorem State.offerEvent_setInbox (l : List WatchItem) (kind : OutKind) (items : List Byte) :
    (s.setInbox l).offerEvent kind items = (s.offerEvent kind items).setInbox l := by
  by_cases h : s.link.events < 16 <;> simp [State.offerEvent, State.setInbox, h]

theorem State.evaluateCopy_setInbox (l : List WatchItem) (c : Completion) (w : WatchPart) :
    (s.setInbox l).evaluateCopy c w = (s.evaluateCopy c w).setInbox l := by
  simp only [State.evaluateCopy]
  rw [apply_ite (fun t : State => t.setInbox l), ← State.offerEvent_setInbox]; rfl

theorem State.takeCopy_setInbox (l : List WatchItem) (c : Completion) :
    (s.setInbox l).takeCopy c = (s.takeCopy c).setInbox l := by
  have hd : (s.setInbox l).doneCopy c = (s.doneCopy c).setInbox l := by
    have e (t u : State) (h : u = t.setInbox l) : (match c.req.copy.watch with
        | none => u
        | some part => u.evaluateCopy c part) = (match c.req.copy.watch with
        | none => t
        | some part => t.evaluateCopy c part).setInbox l := by
      subst h; cases c.req.copy.watch with
      | none => rfl
      | some part => exact t.evaluateCopy_setInbox l c part
    refine e _ _ ?_
    rw [apply_ite (fun t : State => t.setInbox l), ← State.offerEvent_setInbox]; rfl
  have hf : (s.setInbox l).faultCopy c = (s.faultCopy c).setInbox l := by
    simp only [State.faultCopy]
    rw [apply_ite (fun t : State => t.setInbox l), ← State.offerEvent_setInbox]; rfl
  simp only [State.takeCopy]; rw [hd, hf, ← apply_ite (fun t : State => t.setInbox l)]

theorem State.takeItem_setInbox (l : List WatchItem) (x : WatchItem) :
    (s.setInbox l).takeItem x = (s.takeItem x).setInbox l := by
  cases x with
  | copy c => exact s.takeCopy_setInbox l c
  | request r =>
    cases hk : r.kind <;> simp only [State.takeItem, hk]
    all_goals simp only [State.watchGet, State.watchReset]; cases watchSlotOf r.payload <;> rfl

/-- Taking everything that has reached the Watch Unit leaves all but the link, the watch slots, the dropped-event count and
the inbox. -/
theorem State.watchFrame_takeInbox : s.WatchFrame s.takeInbox := by
  have h : ∀ (l : List WatchItem) (t : State), t.WatchFrame (l.foldl State.takeItem t) := by
    intro l; induction l with
    | nil => intro t; rfl
    | cons x l ih => intro t; exact (t.watchFrame_takeItem x).trans (ih _)
  exact (s.watchFrame_setInbox []).trans (h s.inbox (s.setInbox []))

theorem State.watchFrame_sendCopy (c : Completion) (atOnce : Bool) : s.WatchFrame (s.sendCopy c atOnce) := by
  cases atOnce
  · exact s.watchFrame_setInbox _
  · exact (s.watchFrame_setInbox _).trans (State.watchFrame_takeInbox _)

@[simp] theorem State.takeInbox_pending : s.takeInbox.pending = s.pending := by rw [s.watchFrame_takeInbox]
@[simp] theorem State.takeInbox_time : s.takeInbox.time = s.time := by rw [s.watchFrame_takeInbox]
@[simp] theorem State.takeInbox_slots : s.takeInbox.slots = s.slots := by rw [s.watchFrame_takeInbox]
@[simp] theorem State.takeInbox_sweeps : s.takeInbox.sweeps = s.sweeps := by rw [s.watchFrame_takeInbox]
@[simp] theorem State.takeInbox_pages : s.takeInbox.pages = s.pages := by rw [s.watchFrame_takeInbox]
@[simp] theorem State.takeInbox_waiters : s.takeInbox.waiters = s.waiters := by rw [s.watchFrame_takeInbox]
@[simp] theorem State.takeInbox_ports : s.takeInbox.ports = s.ports := by rw [s.watchFrame_takeInbox]
@[simp] theorem State.takeInbox_conv : s.takeInbox.conv = s.conv := by rw [s.watchFrame_takeInbox]
@[simp] theorem State.takeInbox_hand : s.takeInbox.hand = s.hand := by rw [s.watchFrame_takeInbox]
@[simp] theorem State.takeInbox_free : s.takeInbox.free = s.free := by rw [s.watchFrame_takeInbox]

@[simp] theorem State.sendCopy_pending (c : Completion) (b : Bool) : (s.sendCopy c b).pending = s.pending := by
  rw [s.watchFrame_sendCopy]
@[simp] theorem State.sendCopy_time (c : Completion) (b : Bool) : (s.sendCopy c b).time = s.time := by
  rw [s.watchFrame_sendCopy]
@[simp] theorem State.sendCopy_slots (c : Completion) (b : Bool) : (s.sendCopy c b).slots = s.slots := by
  rw [s.watchFrame_sendCopy]
@[simp] theorem State.sendCopy_sweeps (c : Completion) (b : Bool) : (s.sendCopy c b).sweeps = s.sweeps := by
  rw [s.watchFrame_sendCopy]
@[simp] theorem State.sendCopy_pages (c : Completion) (b : Bool) : (s.sendCopy c b).pages = s.pages := by
  rw [s.watchFrame_sendCopy]
@[simp] theorem State.sendCopy_waiters (c : Completion) (b : Bool) : (s.sendCopy c b).waiters = s.waiters := by
  rw [s.watchFrame_sendCopy]
@[simp] theorem State.sendCopy_ports (c : Completion) (b : Bool) : (s.sendCopy c b).ports = s.ports := by
  rw [s.watchFrame_sendCopy]
@[simp] theorem State.sendCopy_conv (c : Completion) (b : Bool) : (s.sendCopy c b).conv = s.conv := by
  rw [s.watchFrame_sendCopy]
@[simp] theorem State.sendCopy_hand (c : Completion) (b : Bool) : (s.sendCopy c b).hand = s.hand := by
  rw [s.watchFrame_sendCopy]
@[simp] theorem State.sendCopy_free (c : Completion) (b : Bool) : (s.sendCopy c b).free = s.free := by
  rw [s.watchFrame_sendCopy]

end Sys2Proof.Machine
end

