-- ==== Sys2Proof/WellFormed.lean ====
section
/-! DEFINITION. Which commands can be events of the part at all: the ranges of their operands. Whether such an event has
its occasion in a state is the meaning's matter (log 1). -/

namespace Sys2Proof

/-- The longest bus sequence: START, two address bytes, 16 written bytes, repeated START, one address byte, 16 read
bytes, STOP (Table 6-3). -/
def longestBusSequence : Nat := 38

/-- Operand ranges: members of the waiter list (at most 4, R82) and of a settling set (at most 128, R96), read lengths
(R3, R116), places in a bus sequence, and the pulses of a clear (R120). -/
def Instr.wf : Instr → Bool
  | .settleExpiry _ k => decide (k < 128)
  | .waitExpiry k => decide (k < 4)
  | .readPhaseEnd _ data => decide (1 ≤ data.length ∧ data.length ≤ 8)
  | .addrNak _ k => decide (k < longestBusSequence)
  | .dataNak _ k => decide (k < longestBusSequence)
  | .directTransferEnd _ data => decide (data.length ≤ 16)
  | .clearEnd _ pulses _ => decide (pulses ≤ 9)
  | .stretching _ pulses => decide (pulses ≤ 9)
  | .selAssertion | .exchangeEnd _ | .nrstAssertion | .nrstRelease | .timeGet => true
  | .probeSet | .probeClear | .probeGet => true
  | .sweepSet | .sweepClear | .sweepArm | .sweepFire | .sweepStop | .sweepGet => true
  | .resultFetch | .portSet _ | .portGet _ | .portClear _ | .portXfer _ => true
  | .hostEntryArrival _ | .analogSet | .analogGet | .watchGet | .watchReset => true
  | .periodExpiry _ | .stretchTimerExpiry _ | .idleTimerExpiry => true
  | .arbiterTakesIssue _ | .grant _ | .endOfPreludePhase _ | .contention _ => true
  | .endOfWake | .endOfConversion _ | .completion _ | .completionCopy | .sclRises _ => true

end Sys2Proof
end

