-- ==== Sys2Proof/Tests/Slice0.lean ====
section
/-! SUPPORT. Tests: the operand checks refuse what is ill formed; single steps against the worked sequences, tables and
numbers of the spec; and for each statement with hypotheses a state that meets them, at the ends of their ranges. -/

-- One theorem at a time: each kernel evaluation waits for the declarations before it, and waiting ones take a thread each.
set_option Elab.async false

namespace Sys2Proof.Tests

open Sys2Proof Sys2Proof.Machine

/-! ### Operand checks -/

theorem test_wf_settle : (Instr.settleExpiry 0 127).wf = true ∧ (Instr.settleExpiry 0 128).wf = false := by decide
theorem test_wf_wait : (Instr.waitExpiry 3).wf = true ∧ (Instr.waitExpiry 4).wf = false := by decide
theorem test_wf_read : (Instr.readPhaseEnd 0 []).wf = false ∧ (Instr.readPhaseEnd 0 (List.replicate 8 0)).wf = true
    ∧ (Instr.readPhaseEnd 0 (List.replicate 9 0)).wf = false := by decide
theorem test_wf_naks : (Instr.addrNak 2 38).wf = false ∧ (Instr.dataNak 2 38).wf = false
    ∧ (Instr.addrNak 2 37).wf = true ∧ (Instr.dataNak 2 37).wf = true := by decide
theorem test_wf_transfer : (Instr.directTransferEnd 1 (List.replicate 17 0)).wf = false
    ∧ (Instr.directTransferEnd 1 (List.replicate 16 0)).wf = true := by decide
theorem test_wf_pulses : (Instr.clearEnd 1 10 true).wf = false ∧ (Instr.stretching 1 10).wf = false
    ∧ (Instr.clearEnd 1 9 true).wf = true ∧ (Instr.stretching 1 9).wf = true := by decide

/-! ### States -/

def ref (n : Nat) : ReqRef := { id := n, seq := byteOf n, replyKind := 0x90 }

def asked (k : ReqKind) (p : List Byte) : Request := { ref := ref 7, kind := k, payload := p }

/-- An OPEN link whose accepted set holds the request of `asked`. -/
def openLink : Link :=
  Link.refresh { Link.reset .powerOn with state := .opened, queue := [], e := 10, t := 20, accepted := [ref 7], nextId := 8 }

/-- PROBE.SET of slot 4 (section 1.10). -/
def payload4 : List Byte :=
  [4, 1, 3, 0, 7, 0, 72, 1, 0, 0, 0, 0, 0, 0, 0, 0, 2, 1, 0, 0, 1, 0, 2, 0, 1, 0xFF, 0xFF, 0xFE, 0x70, 0, 0, 3, 0x52, 0, 20]

/-- Slot 4 of section 1.10. -/
def record4 : ProbeRecord :=
  { body := .twoWire { port := 0, mode := .seven, addr := 72, index := [0], prelude := none, readLen := 2, retries := 1 },
    faultLimit := 3,
    watch := some { offset := 0, width := 2, order := .big, sign := .signed, low := -400, high := 850, hysteresis := 20 } }

/-- Slot 5 of section 1.10: a 10-bit target with a prelude. -/
def record5 : ProbeRecord :=
  { body := .twoWire { port := 1, mode := .ten, addr := 610, index := [], prelude := some { bytes := [0x2C], settle := 15 },
                       readLen := 6, retries := 0 },
    faultLimit := 1, watch := none }

/-- Slot 9 of section 1.10. -/
def record9 : ProbeRecord :=
  { body := .analog { input := 3, samples := 8 }, faultLimit := 5,
    watch := some { offset := 0, width := 2, order := .big, sign := .unsigned, low := 200, high := 3900, hysteresis := 50 } }

/-- SWEEP.SET of sweep 3 (section 2.12). -/
def payload3 : List Byte :=
  [3, 1, 0, 10, 0, 4, 0, 0, 3, 0, 0, 2, 1, 2, 4, 9] ++ List.replicate 14 0

/-- Its CHAIN to itself with HALT and RESTART, for the clauses that need them. -/
def definition (source : Trigger) (o : Overrun) (f : FaultPolicy) (limit : Half) : SweepDef :=
  { list := [4, 9], source := source, passLimit := limit, overrun := o, faultPolicy := f, priority := 2, notify := true }

def definition3 : SweepDef := definition (.period 10 4) .skip .continue 3

/-- Slots 4, 5 and 9 defined, sweep 3 in the given state, the link OPEN. -/
def demo (st : SweepState) (d : SweepDef) (run : Option RunningPass) : State :=
  { State.reset with
    slots := ((State.reset.slots.set 4 { record := some record4, refs := 1 }).set 9 { record := some record9, refs := 1 }).set 5
      { record := some record5, refs := 0 }
    sweeps := State.reset.sweeps.set 3 { Sweep.reset with state := st, defn := some d, run := run }
    link := openLink }

def idleDemo : State := demo .idle definition3 none

def probeAsked (k : ReqKind) (p : List Byte) : State :=
  { idleDemo with hand := { HandOff.reset with probeTable := [asked k p] } }

def sweepAsked (k : ReqKind) (p : List Byte) (st : SweepState) (d : SweepDef) (run : Option RunningPass) : State :=
  { demo st d run with hand := { HandOff.reset with sweepEngine := [asked k p] } }

/-- A running pass of sweep 3 with the given positions. -/
def pass (l : List PosState) : Option RunningPass := some { start := 0, positions := l }

/-- The next state of a command. -/
def next (c : Instr) (s : State) : Option State :=
  match exec c s with
  | .next t => some t
  | .fault _ | .refused _ => none

/-- The payload of the last frame of the queue. -/
def lastPayload (s : State) : Option (List Byte) := s.link.queue.getLast?.map OutFrame.payload

/-! ### Numbers and layouts of the spec -/

/-- R182's check value. -/
theorem test_crc : crc [0x31, 0x32, 0x33, 0x34, 0x35, 0x36, 0x37, 0x38, 0x39] = 0x29B1 := by decide +kernel

/-- R105's examples. -/
theorem test_addresses : addressForWrite .seven 72 = [0x90] ∧ addressForRead .seven 72 = 0x91
    ∧ addressForWrite .ten 610 = [0xF4, 0x62] ∧ addressForRead .ten 610 = 0xF5 := by decide

/-- R104: the port acknowledges every received byte but the last; Table 6-2: slot 4 writes its index and reads two bytes. -/
theorem test_bus_sequence : busSequence .seven 72 [0] 2 = [.start, .address 0x90, .write 0, .repeatedStart, .address 0x91,
    .read true, .read false, .stop] := by decide

/-- Section 1.10: the payload of slot 4 stores the record, and a watch that reaches beyond the data is refused. -/
theorem test_probe_payload : readProbe payload4 = some record4
    ∧ readProbe ([10, 2, 5] ++ List.replicate 15 0 ++ [3, 8, 1, 1, 2, 0, 0, 0, 0, 0, 200, 0, 0, 0x0F, 0x3C, 0, 50]) = none := by
  decide

/-- Section 2.12. -/
theorem test_sweep_payload : readSweep payload3 = .ok definition3 := by decide +kernel

/-! ### Host Link -/

/-- An exchange in progress on a link, with an IDLE offer. -/
def hearing (l : Link) : State :=
  { State.reset with link := { l with sel := true, exchange := some { offer := [], queued := false } } }

/-- R157, R155: after reset the offer is the HELLO frame; RACK is E − 1. -/
theorem test_sel : (next .selAssertion State.reset).bind (fun s => s.link.exchange.map (fun x => x.offer.take 8))
    = some [0xA5, 2, 0xC1, 0, 0xFF, 0, 0, 1] := by decide +kernel

/-- R169: OPEN of SEQ 9 sets E to 10 and T to 1, and queues the OPEN reply. -/
theorem test_open : (next (.exchangeEnd (hostFrameBytes 1 9 0 0 [])) (hearing (Link.reset .powerOn))).map
    (fun s => (s.link.e, s.link.t, lastPayload s))
    = some (10, 1, some [9, 0, 1, 64, 8, 16, 3, 10, 120, 24, 16, 4, 8, 4, 0, 0]) := by decide +kernel

/-- R163, R174: a TIME.GET of SEQ E reaches the Time Base. -/
theorem test_request : (next (.exchangeEnd (hostFrameBytes 3 10 0 0 [])) (hearing openLink)).map
    (fun s => (s.link.e, s.hand.timeBase.length, s.link.accepted.length)) = some (11, 1, 2) := by decide +kernel

/-- R173: NRST closes the link and holds off exchanges until it is released. -/
theorem test_nrst : (next .nrstAssertion (hearing openLink)).map (fun s => (s.link.state, s.link.nrst, s.link.exchange))
    = some (.closed, true, none) := by decide +kernel

theorem test_nrst_release : (next .nrstRelease { State.reset with link := { openLink with nrst := true } }).map
    (fun s => s.link.nrst) = some false := by decide +kernel

/-! ### Time Base and Probe Table -/

/-- R148. -/
theorem test_time_get : (next .timeGet { idleDemo with
      time := 0x01020304, hand := { HandOff.reset with timeBase := [asked .timeGet []] } }).bind lastPayload
    = some [7, 0, 1, 2, 3, 4] := by decide +kernel

/-- Section 1.10, steps 1, 4, 8 and 9. -/
theorem test_probe_set : (next .probeSet (probeAsked .probeSet payload4)).bind lastPayload = some [7, 0, 4, 1] := by
  decide +kernel

theorem test_probe_in_use : (next .probeSet { demo .armed definition3 none with
      hand := { HandOff.reset with probeTable := [asked .probeSet payload4] } }).bind lastPayload = some [7, 4, 4, 1] := by
  decide +kernel

theorem test_probe_clear : (next .probeClear (probeAsked .probeClear [4])).bind lastPayload = some [7, 4, 4, 1]
    ∧ (next .probeClear (probeAsked .probeClear [5])).map (fun s => (s.slot 5).record) = some none := by decide +kernel

theorem test_probe_get : (next .probeGet (probeAsked .probeGet [4])).bind lastPayload = some ([7, 0, 1, 1] ++ payload4) := by
  decide +kernel

/-! ### Sweep Engine (section 2.12) -/

theorem test_sweep_set : (next .sweepSet (sweepAsked .sweepSet payload3 .idle definition3 none)).map
    (fun s => (lastPayload s, (s.slot 4).refs, (s.slot 5).refs)) = some (some [7, 0, 3, 1, 0], 1, 0) := by decide +kernel

theorem test_sweep_clear : (next .sweepClear (sweepAsked .sweepClear [3] .idle definition3 none)).map
    (fun s => (lastPayload s, (s.slot 4).refs, (s.sweep 3).state)) = some (some [7, 0, 3, 0], 0, .empty) := by
  decide +kernel

theorem test_sweep_arm : (next .sweepArm { sweepAsked .sweepArm [3] .idle definition3 none with time := 50000 }).map
    (fun s => ((s.sweep 3).state, (s.sweep 3).timer, lastPayload s)) = some (.armed, some 54000, some [7, 0, 3, 2]) := by
  decide +kernel

theorem test_sweep_fire : (next .sweepFire (sweepAsked .sweepFire [3] .armed definition3 none)).map
    (fun s => (lastPayload s, (s.arb (.tw 0)).issues.length, (s.arb .analog).issues.length))
    = some (some [7, 0, 3, 1, 0, 0, 0, 1], 1, 1) := by decide +kernel

theorem test_sweep_fire_idle : (next .sweepFire (sweepAsked .sweepFire [3] .idle definition3 none)).bind lastPayload
    = some [7, 9, 3, 0, 0, 0, 0, 0] := by decide +kernel

/-- R39: a running sweep whose two requests are granted waits in STOPPING, and the STOP is held. -/
theorem test_sweep_stop : (next .sweepStop (sweepAsked .sweepStop [3] .running definition3 (pass [.pending, .pending]))).map
    (fun s => ((s.sweep 3).state, (s.sweep 3).remnant, (s.sweep 3).held.length)) = some (.stopping, 2, 1) := by
  decide +kernel

theorem test_sweep_get : ((next .sweepGet (sweepAsked .sweepGet [3] .idle definition3 none)).bind lastPayload).map
    (fun p => (p.length, p.take 5)) = some (49, [7, 0, 3, 1, 1]) := by decide +kernel

/-- Section 2.12, steps 2 and 5: the timer goes on by the period; a RUNNING sweep under SKIP misses the trigger. -/
def expiring (st : SweepState) (run : Option RunningPass) : State :=
  let s := demo st definition3 run
  { s with time := 54000, sweeps := s.sweeps.set 3 { s.sweep 3 with timer := some 54000 } }

theorem test_period_expiry : (next (.periodExpiry 3) (expiring .armed none)).map
    (fun s => ((s.sweep 3).state, (s.sweep 3).timer, (s.sweep 3).started)) = some (.running, some 64000, 1) := by
  decide +kernel

theorem test_period_missed : (next (.periodExpiry 3) (expiring .running (pass [.pending, .pending]))).map
    (fun s => ((s.sweep 3).missed, (s.sweep 3).timer, (s.sweep 3).started)) = some (1, some 64000, 0) := by decide +kernel

/-! ### Probe requests, arbiters and ports -/

/-- The request of sweep 3 for position `k`. -/
def request (k : Fin 16) (slot : Fin 64) (copy : ProbeRecord) : ProbeRequest :=
  { sweep := 3, position := k, pass := 1, slot := slot, copy := copy, priority := 2 }

def entry (k : Fin 16) (slot : Fin 64) (copy : ProbeRecord) (age : Nat) : ProbeEntry :=
  { req := request k slot copy, age := age, preludeDone := false }

/-- A port in the middle of sweep 3's pass, with a bus operation or none. -/
def portWith (st : PortState) (work : Option PortWork) : Port :=
  { Port.reset with
    state := st, granted := work.map (fun w => { work := w, config := PortConfig.reset }) }

def atPort (p : PortNo) (q : Port) : State :=
  { demo .running definition3 (pass [.pending, .pending]) with ports := State.reset.ports.set p q }

def reading4 : PortWork := .probe (entry 0 4 record4 1) .read 1

/-- R89. -/
theorem test_takes_issue : (next (.arbiterTakesIssue (.tw 0)) (atPort 0 { portWith .blocked none with
      arb := { Arbiter.reset with issues := [request 0 4 record4] } })).map
    (fun s => ((s.port 0).arb.done.map Completion.status, (s.port 0).arb.pending.length)) = some ([.portBlocked], 0) := by
  decide +kernel

/-- R91, Table 5-2: the higher priority first, then the older age. -/
theorem test_grant : (next (.grant (.tw 0)) (atPort 0 { portWith .idle none with
      arb := { Arbiter.reset with pending := [entry 1 4 record4 102, entry 0 4 record4 101] } })).map
    (fun s => ((s.port 0).granted.map PortGrant.work, (s.port 0).state))
    = some (some (.probe (entry 0 4 record4 101) .read 1), .active) := by decide +kernel

/-- R93: section 1.10's slot 5 settles for 15 ms. -/
theorem test_prelude_end : (next (.endOfPreludePhase 1) (atPort 1
      (portWith .active (some (.probe (entry 1 5 record5 1) .prelude 1))))).map
    (fun s => ((s.port 1).settling.map Settling.expiry, (s.port 1).state)) = some ([15000], .idle) := by decide +kernel

theorem test_settle : (next (.settleExpiry 1 0) (atPort 1 { portWith .idle none with
      settling := [{ entry := entry 1 5 record5 1, expiry := 0 }] })).map
    (fun s => ((s.port 1).settling.length, (s.port 1).arb.pending.map ProbeEntry.age)) = some (0, [1]) := by decide +kernel

theorem test_read_end : (next (.readPhaseEnd 0 [0x01, 0x2C]) (atPort 0 (portWith .active (some reading4)))).map
    (fun s => (s.port 0).arb.done.map (fun c => (c.status, c.attempts, c.data))) = some [(.done, 1, [0x01, 0x2C])] := by
  decide +kernel

/-- R110: slot 4 has one retry, so a second refusal ends it. -/
theorem test_addr_nak : (next (.addrNak 0 1) (atPort 0 (portWith .active (some reading4)))).map
    (fun s => (s.port 0).granted.map PortGrant.work) = some (some (.probe (entry 0 4 record4 1) .read 2))
    ∧ (next (.addrNak 0 1) (atPort 0 (portWith .active (some (.probe (entry 0 4 record4 1) .read 2))))).map
      (fun s => (s.port 0).arb.done.map (fun c => (c.status, c.attempts))) = some [(.addrNak, 2)] := by decide +kernel

theorem test_data_nak : (next (.dataNak 0 2) (atPort 0 (portWith .active (some reading4)))).map
    (fun s => (s.port 0).arb.done.map (fun c => (c.status, c.attempts))) = some [(.dataNak, 1)] := by decide +kernel

theorem test_contention : (next (.contention 0) (atPort 0 (portWith .active (some reading4)))).map
    (fun s => ((s.port 0).state, (s.port 0).lastBlock, (s.port 0).arb.done.map Completion.status))
    = some (.blocked, some (.contention, 0), [.contention]) := by decide +kernel

/-- R112: 25 ms after reset's configuration. -/
theorem test_stretching : (next (.stretching 0 0) (atPort 0 (portWith .active (some reading4)))).map
    (fun s => (s.port 0).stretch) = some (some 25000) := by decide +kernel

theorem test_scl_rises : (next (.sclRises 0) (atPort 0 { portWith .active (some reading4) with stretch := some 9 })).map
    (fun s => (s.port 0).stretch) = some none := by decide +kernel

theorem test_stretch_expiry : (next (.stretchTimerExpiry 0) (atPort 0 { portWith .active (some reading4) with
      stretch := some 0 })).map (fun s => ((s.port 0).state, (s.port 0).arb.done.map Completion.status))
    = some (.blocked, [.stretchTimeout]) := by decide +kernel

/-- The transfer of `ref 7`: one byte written, two read. -/
def transfer : Transfer := { ref := ref 7, mode := .seven, addr := 72, write := [1], readLen := 2 }

theorem test_transfer_end : (next (.directTransferEnd 0 [5, 6]) (atPort 0
      (portWith .active (some (.transfer { xfer := transfer, age := 1 }))))).bind lastPayload
    = some [7, 0, 0, 2, 5, 6, 0, 0, 0, 0] := by decide +kernel

theorem test_clear_end : (next (.clearEnd 0 9 false) (atPort 0 (portWith .clearing (some (.clear (ref 7) 0))))).map
    (fun s => (lastPayload s, (s.port 0).state)) = some (some [7, 0x0C, 0, 9], .blocked) := by decide +kernel

theorem test_host_entry : (next (.hostEntryArrival 0) (atPort 0 { portWith .active (some reading4) with
      arrivals := [transfer], transfers := List.replicate 8 { xfer := transfer, age := 1 } })).bind lastPayload
    = some [7, 1, 0, 0, 0, 0, 0, 0] := by decide +kernel

/-- A PORT request at the head of the list of port 0. -/
def portAsked (k : ReqKind) (p : List Byte) (q : Port) : State :=
  { atPort 0 q with hand := { HandOff.reset with tw := HandOff.reset.tw.set 0 [asked k p] } }

/-- A PORT request at the head of the block's list. -/
def blockAsked (k : ReqKind) (p : List Byte) : State :=
  { idleDemo with hand := { HandOff.reset with portsBlock := [asked k p] } }

theorem test_port_set : (next (.portSet (.tw 0)) (portAsked .portSet [0, 1, 100] Port.reset)).bind lastPayload
    = some [7, 0, 0, 1, 100]
    ∧ (next (.portSet .block) (blockAsked .portSet [3, 1, 100])).bind lastPayload = some [7, 5, 3, 0, 0] := by
  decide +kernel

theorem test_port_get : (next (.portGet (.tw 0)) (portAsked .portGet [0] Port.reset)).bind lastPayload
    = some [7, 0, 0, 0, 0, 25, 0, 0, 0, 0, 0, 0xFF, 0, 0, 0, 0] := by decide +kernel

/-- R90: NOT_BLOCKED, and a transfer handed to the arbiter before the clear is placed before it. -/
theorem test_port_clear : (next (.portClear (.tw 0)) (portAsked .portClear [0] { Port.reset with arrivals := [transfer] })).map
      (fun s => (lastPayload s, (s.port 0).transfers, (s.port 0).arrivals))
    = some (some [7, 0x0B, 0, 0], [{ xfer := transfer, age := 1 }], [])
    ∧ (next (.portClear (.tw 0)) (portAsked .portClear [0] (portWith .blocked none))).map (fun s => (s.port 0).state)
      = some .clearing := by decide +kernel

/-- PORT.XFER of `transfer`. -/
def payloadX : List Byte := [0, 7, 0, 72, 1, 2, 1] ++ List.replicate 15 0

theorem test_port_xfer : (next (.portXfer (.tw 0)) (portAsked .portXfer payloadX Port.reset)).map
    (fun s => (s.port 0).arrivals) = some [transfer] := by decide +kernel

/-! ### Analog converter (section 7.7) -/

def converting9 (taken sum : Nat) : Conversion := { entry := entry 1 9 record9 51, since := 700050, taken := taken, sum := sum }

def atConverter (c : Converter) (now : Time) : State := { idleDemo with time := now, conv := c }

theorem test_grant_wakes : (next (.grant .analog) (atConverter { Converter.reset with
      arb := { Arbiter.reset with pending := [entry 1 9 record9 51] } } 700000)).map (fun s => s.conv.power)
    = some .waking := by decide +kernel

theorem test_wake : (next .endOfWake (atConverter { Converter.reset with
      power := .waking, granted := some { converting9 0 0 with since := 700000 } } 700050)).map
    (fun s => (s.conv.power, s.conv.granted)) = some (.converting, some (converting9 0 0)) := by decide +kernel

theorem test_conversion : (next (.endOfConversion 2050) (atConverter { Converter.reset with
      power := .converting, granted := some (converting9 7 14326) } 700210)).map
    (fun s => (s.conv.power, s.conv.idleTimer, s.conv.arb.done.map Completion.data))
    = some (.ready, some 702210, [[0x07, 0xFF]]) := by decide +kernel

theorem test_idle_timer : (next .idleTimerExpiry (atConverter { Converter.reset with
      power := .ready, idleTimer := some 706000 } 706000)).map (fun s => s.conv.power) = some .off := by decide +kernel

def converterAsked (k : ReqKind) (p : List Byte) (c : Converter) (now : Time) : State :=
  { atConverter c now with hand := { HandOff.reset with converter := [asked k p] } }

theorem test_analog_set : (next .analogSet (converterAsked .analogSet [5] { Converter.reset with
      power := .ready, idleTimer := some 702290 } 701000)).map (fun s => (s.conv.idleTimer, lastPayload s))
    = some (some 706000, some [7, 0, 2, 5]) := by decide +kernel

theorem test_analog_get : (next .analogGet (converterAsked .analogGet [] Converter.reset 0)).bind lastPayload
    = some [7, 0, 0, 2, 0, 0, 0, 0, 0, 0, 0, 0, 0, 0, 0] := by decide +kernel

/-! ### Completions, results and waiters -/

def ended (k : Fin 16) (slot : Fin 64) (copy : ProbeRecord) (st : CompStatus) (data : List Byte) : Completion :=
  { req := request k slot copy, status := st, data := data, attempts := 1, time := 61500 }

/-- A completion of position 1 at the converter's arbiter, sweep 3 running the given positions. -/
def completing (st : SweepState) (d : SweepDef) (l : List PosState) (c : Completion) : State :=
  { demo st d (pass l) with conv := { Converter.reset with arb := { Arbiter.reset with done := [c] } } }

/-- R50, R53: a position is written, and another is pending, so the pass runs on. -/
theorem test_completion :
    (let c := ended 1 9 record9 .done [7, 0xFF]
     let after (atOnce : Bool) : State :=
       State.takeCompletion (completing .running (definition .host .skip .continue 0) [.pending, .pending] c) c atOnce
     ∀ b, ((after b).sweep 3).positions = [.pending, .complete] ∧ (((after b).pagesOf 3).work.records[1]).data = [7, 0xFF]
      ∧ (after b).inbox = if b then [] else [.copy c]) := by decide +kernel

/-- The kinds of the frames that stand in the queue when sweep 3 takes a completion under `f`, slot 4 at two faults, and the
Watch Unit takes its copy as it is sent, or later. -/
def eventKinds (f : FaultPolicy) (l : List PosState) (c : Completion) (atOnce : Bool) : List Byte :=
  (State.takeInbox (State.takeCompletion { completing .running (definition .host .skip f 0) l c with
    watches := State.reset.watches.set 4 { WatchSlot.reset with faults := 2 } } c atOnce)).link.queue.map (fun f => f.kind.code)

/-- R55, R51: a third fault halts the pass; its HEALTH event stands after the HALT event or before it. R64, R146: a value of
4000, HIGH, completes the page; its WATCH event stands after the PASS event or before it. -/
theorem test_copy_order :
    (let halted := eventKinds .halt [.pending, .complete] (ended 0 4 record4 .portBlocked [])
     halted false = [OutKind.halt.code, OutKind.health.code] ∧ halted true = [OutKind.health.code, OutKind.halt.code])
    ∧ (let published := eventKinds .continue [.complete, .pending] (ended 1 9 record9 .done [0x0F, 0xA0])
       published false = [OutKind.pass.code, OutKind.watch.code] ∧ published true = [OutKind.watch.code, OutKind.pass.code]) := by
  decide +kernel

def copied (c : Completion) (w : WatchSlot) : State :=
  { idleDemo with inbox := [.copy c], watches := State.reset.watches.set 4 w }

/-- Section 8.6, steps 2 and 7: HIGH at 860, and FAILING at the third fault. -/
theorem test_copy : (next .completionCopy (copied (ended 0 4 record4 .done [0x03, 0x5C]) { WatchSlot.reset with
      watch := .normal })).map (fun s => ((s.watch 4).watch, s.link.events)) = some (.high, 1) := by decide +kernel

theorem test_fault_copy : (next .completionCopy (copied (ended 0 4 record4 .addrNak []) { WatchSlot.reset with
      watch := .normal, faults := 2 })).map (fun s => (s.watch 4, s.link.events))
    = some ({ watch := .unknown, health := .failing, faults := 3 }, 1) := by decide +kernel

def highSlot : WatchSlot := { watch := .high, health := .good, faults := 2 }

def watchAsked (k : ReqKind) (p : List Byte) : State :=
  { idleDemo with inbox := [.request (asked k p)], watches := State.reset.watches.set 4 highSlot }

theorem test_watch_get : (next .watchGet (watchAsked .watchGet [4])).bind lastPayload = some [7, 0, 4, 3, 0, 2, 0] := by
  decide +kernel

theorem test_watch_reset : (next .watchReset (watchAsked .watchReset [4])).bind lastPayload
    = some [7, 0, 4, 0, 0, 0, 0] := by decide +kernel

def fetchAsked (p : List Byte) (s : State) : State :=
  { s with hand := { HandOff.reset with resultStore := [asked .resultFetch p] } }

/-- R79, R68: the cleared page of a sweep that has published nothing. -/
theorem test_fetch : (next .resultFetch (fetchAsked [3, 0, 1, 0, 0, 0, 0, 0, 0, 0] idleDemo)).bind lastPayload
    = some [7, 0, 3, 1, 0, 0, 0, 0, 0, 0, 0, 0, 0, 0, 0xFF, 0, 0, 0, 0, 0] := by decide +kernel

/-- Section 4.10: six records of 16 bytes fill the reply. -/
theorem test_packing : (fetchItems 7 { Page.cleared with
      records := Vector.replicate 16 { Record.cleared with data := List.replicate 8 0 } } 0 16).length + 2 = 108 := by
  decide +kernel

def waiter (n : Word) (deadline : Time) : Waiter :=
  { ref := ref 7, sweep := 3, passHeld := n, first := 0, count := 1, deadline := deadline }

theorem test_wait_expiry : (next (.waitExpiry 0) { demo .armed definition3 none with waiters := [waiter 1 0] }).map
    (fun s => (lastPayload s, s.waiters)) = some (some [7, 0x0F, 3, 0, 0, 0, 0, 0, 0, 0, 0, 0], []) := by decide +kernel

/-! ### What the statements assume: the laws -/

/-- An OPEN link on which LinkLaw holds. -/
def startedLink : Link := Link.start (Link.reset .powerOn) 9 .powerOn 0

/-- Sweep 3 of `live`. -/
def liveSweep : Sweep :=
  { Sweep.reset with state := .running, defn := some definition3, timer := some 64000, started := 1,
                     run := some { start := 54000, positions := [.pending, .complete] } }

/-- Sweep 3 runs with position 0 pending at port 0; a fetch waits on it; slot 9 is FAILING; the converter is READY. -/
def live : State :=
  { demo .running definition3 none with
    pending := [.grant (.tw 0)], sweeps := State.reset.sweeps.set 3 liveSweep, waiters := [waiter 1 70000],
    ports := State.reset.ports.set 0 { Port.reset with
      arb := { issues := [], pending := [entry 0 4 record4 1], age := 1, done := [] } }
    conv := { Converter.reset with power := .ready, idleTimer := some 70000 }
    watches := State.reset.watches.set 9 { watch := .unknown, health := .failing, faults := 5 }, link := startedLink }

theorem live_steps : ∃ t, step live = .next t := ⟨_, rfl⟩

theorem witness_LinkLawKept : LinkLaw live.link ∧ ∃ t, step live = .next t :=
  ⟨LinkLaw.start _ _ _ _ rfl rfl, live_steps⟩

theorem witness_QueueBounds : LinkLaw startedLink ∧ startedLink.state = .opened := ⟨LinkLaw.start _ _ _ _ rfl rfl, rfl⟩

theorem witness_ReferenceLawKept : ReferenceLaw live ∧ ∃ t, step live = .next t :=
  ⟨{ counted := by decide +kernel, defined := by decide +kernel, distinct := by decide +kernel,
     empty := by decide +kernel }, live_steps⟩

theorem live_sweep : ∀ i, live.sweep i = if i = 3 then liveSweep else Sweep.reset := by decide +kernel

theorem witness_SweepLawKept : (∀ i, SweepLaw (live.sweep i)) ∧ ∃ t, step live = .next t := by
  refine ⟨fun i => ?_, live_steps⟩
  rw [live_sweep]
  split
  · exact { empty := by decide, range := by rintro d ⟨⟩; decide +kernel, running := by decide,
            positions := by rintro d r ⟨⟩ ⟨⟩; rfl, timer := by decide, remnant := by decide, held := by decide,
            missed := by decide }
  · exact { empty := by decide, range := by rintro d ⟨⟩, running := by decide, positions := by rintro d r ⟨⟩,
            timer := by decide, remnant := by decide, held := by decide, missed := by decide }

theorem witness_WaiterLawKept : WaiterLaw live ∧ ∃ t, step live = .next t :=
  ⟨{ room := by decide, waiting := by decide +kernel }, live_steps⟩

theorem live_port : ∀ p, (live.port p).state = .idle ∧ (live.port p).granted = none ∧ (live.port p).held = none
    ∧ (live.port p).stretch = none ∧ (live.port p).transfers = [] := by decide +kernel

theorem witness_PortLawKept : (∀ p, PortLaw (live.port p)) ∧ ∃ t, step live = .next t := by
  refine ⟨fun p => ?_, live_steps⟩
  obtain ⟨hs, hg, hh, ht, hx⟩ := live_port p
  exact { fits := by simp [Port.stateFits, hs, hg], blocked := by simp [Port.places, hs], room := by simp [hx],
          held := by simp [hh], stretch := by simp [ht] }

theorem live_outstanding : ∀ i k, live.outstanding i k = if i = 3 ∧ k = 0 then 1 else 0 := by decide +kernel

theorem witness_OutstandingLawKept : ReferenceLaw live ∧ (∀ i, SweepLaw (live.sweep i)) ∧ (∀ p, PortLaw (live.port p))
    ∧ OutstandingLaw live ∧ ∃ t, step live = .next t := by
  refine ⟨witness_ReferenceLawKept.1, witness_SweepLawKept.1, witness_PortLawKept.1, fun i => ?_, live_steps⟩
  by_cases h : i = 3
  · subst h; show ∀ k, live.outstanding 3 k = _; decide +kernel
  · have : (live.sweep i).state = .empty := by simp [live_sweep, h, Sweep.reset]
    simp only [this, live_outstanding, h, false_and, if_false, implies_true]

theorem witness_ConverterAndWatchLawsKept : ConverterLaw live.conv ∧ WatchLaw live ∧ ∃ t, step live = .next t :=
  ⟨{ granted := by decide, timer := by decide, delay := by decide, sum := by rintro g ⟨⟩ },
   { failing := by decide +kernel, dropped := by decide }, live_steps⟩

/-! ### What the statements assume: the step -/

theorem witness_StepTakesFrontCommand : live.pending = .grant (.tw 0) :: [] := rfl

/-- In the reset state no command but the link's has its occasion. -/
theorem witness_EveryCommandAnswersNext : (let s := State.reset
    s.hand.timeBase = [] ∧ s.hand.probeTable = [] ∧ s.hand.sweepEngine = [] ∧ s.hand.resultStore = []
      ∧ s.hand.ports (.tw 2) = [] ∧ s.hand.ports .block = [] ∧ s.hand.converter = [] ∧ s.inbox = []
      ∧ (s.port 2).arrivals = [] ∧ (s.sweep 7).timer ≠ some s.time ∧ s.waiters[0]? = none ∧ (s.port 2).settling[0]? = none
      ∧ (s.port 2).stretch ≠ some s.time ∧ s.conv.idleTimer ≠ some s.time ∧ (s.arb (.tw 2)).issues = []
      ∧ (s.arb .analog).done = [] ∧ (s.port 2).arb.pending = [] ∧ (s.port 2).transfers = [] ∧ s.conv.arb.pending = []
      ∧ (s.port 2).granted = none ∧ s.conv.power ≠ .waking ∧ s.conv.power ≠ .converting) := by decide +kernel

/-- R92, R128: at the end of a conversion the grant of a probe that waits is due, and time does not pass over it. -/
theorem test_due_grant : (atConverter { Converter.reset with
      power := .ready, idleTimer := some 702210, arb := { Arbiter.reset with pending := [entry 1 9 record9 51] } } 700210).choices
    = [some (.grant .analog)] := by decide +kernel

/-- A waiter whose deadline has come; every other event that time does not pass over; reset, where nothing waits; a sample
that is about to end; nothing due and a request that waits. -/
theorem witness_IdleStepWaitsForDueEvents :
    (let s : State := { State.reset with waiters := [waiter 1 0] }
     s.pending = [] ∧ s.dueNow ≠ [] ∧ waiter 1 0 ∈ s.waiters ∧ (waiter 1 0).deadline = s.time)
    ∧ ((expiring .armed none).sweep 3).timer = some (expiring .armed none).time
    ∧ (let m : Settling := { entry := entry 1 5 record5 1, expiry := 0 }
       m ∈ ((atPort 1 { portWith .idle none with settling := [m] }).port 1).settling ∧ m.expiry = (atPort 1 Port.reset).time)
    ∧ (let s := atPort 0 { portWith .active (some reading4) with stretch := some 0 }
       (s.port 0).stretch = some s.time ∧ (s.port 0).granted ≠ none)
    ∧ (let s := atConverter { Converter.reset with power := .ready, idleTimer := some 706000 } 706000
       s.conv.idleTimer = some s.time ∧ s.conv.power = .ready)
    ∧ (let g := { converting9 0 0 with since := 700000 }
       let s := atConverter { Converter.reset with power := .waking, granted := some g } 700050
       s.conv.power = .waking ∧ s.conv.granted = some g ∧ s.time = g.since + 50)
    ∧ (let s := atConverter { Converter.reset with power := .converting, granted := some (converting9 7 0) } 700210
       s.conv.power = .converting ∧ s.conv.granted = some (converting9 7 0)
        ∧ (converting9 7 0).entry.req.copy.body = .analog { input := 3, samples := 8 } ∧ (converting9 7 0).taken + 1 = 8
        ∧ s.time = (converting9 7 0).since + BitVec.ofNat 32 (20 * 8))
    ∧ ((atPort 2 { Port.reset with arb := { Arbiter.reset with issues := [request 0 4 record4] } }).arb (.tw 2)).issues ≠ []
    ∧ (let c := { Converter.reset with arb := { Arbiter.reset with pending := [entry 1 9 record9 51] } }
       c.granted = none ∧ c.arb.pending ≠ [])
    ∧ (let q := { portWith .idle none with arb := { Arbiter.reset with pending := [entry 0 4 record4 1] } }
       q.granted = none ∧ q.state ≠ .blocked ∧ q.arb.pending ≠ [])
    ∧ (State.reset.pending = [] ∧ State.reset.dueNow = [] ∧ State.reset.waiting = []
        ∧ State.reset.conv.sampleEnds (State.reset.time + 1) = false)
    ∧ (let s := atConverter { Converter.reset with power := .converting, granted := some (converting9 0 0) } 700069
       s.pending = [] ∧ s.dueNow = [] ∧ s.waiting = [] ∧ s.conv.granted = some (converting9 0 0)
        ∧ s.conv.sampleEnds (s.time + 1) = true)
    ∧ (let s := watchAsked .watchGet [4]
       s.pending = [] ∧ s.dueNow = [] ∧ s.waiting ≠ []) := by
  refine ⟨?_, ?_, ?_, ?_, ?_, ?_, ?_, ?_, ?_, ?_, ?_, ?_, ?_⟩ <;> decide +kernel

/-! ### What the statements assume: frames, payloads and the bus -/

theorem witness_HostFrameReadsBack : (List.replicate 120 (0 : Byte)).length ≤ 120 := by decide

theorem witness_ProbePayloadRoundTrip : record4.inRange = true ∧ record5.inRange = true ∧ record9.inRange = true
    ∧ payload4.length = 35 ∧ readProbe payload4 = some record4 := by decide +kernel

theorem witness_SweepPayloadRoundTrip : definition3.inRange = true ∧ payload3.length = 30
    ∧ readSweep payload3 = .ok definition3 := by decide +kernel

/-- One byte read, and sixteen; the address bytes of target 127 by their R/W bit; a prelude. -/
theorem witness_AddressBytesAndBitTimes : (127#10).toNat ≤ 127 ∧ 0 < 1 ∧ 0 < 16 ∧ [(0 : Byte)] ≠ []
    ∧ [BusItem.read false] = List.replicate (1 - 1) (.read true) ++ [.read false]
    ∧ (∀ x : BitVec 1, ((0b1111111#7 ++ x : Byte)) = (127#10).extractLsb' 0 7 ++ x)
    ∧ (let pre : Prelude := { bytes := [0x2C], settle := 15 }
       record5.body = .twoWire
        { port := 1, mode := .ten, addr := 610, index := [], prelude := some pre, readLen := 6, retries := 0 }) := by decide

/-! ### What the statements assume: the Host Link -/

/-- An OPEN link whose queue holds four sent frames and one more, the cursor behind the four. -/
def fullWindow : Link :=
  { openLink with
    queue := List.replicate 4 { kind := .pass, seq := 1, payload := [], sent := true }
      ++ [{ kind := .pass, seq := 1, payload := [], sent := false }]
    cursor := 4 }

/-- The CRC register after `k` of the eight steps of a byte. -/
def register (start : Half) : Nat → Half
  | 0 => start
  | k + 1 => if (register start k).getLsbD 15 then (register start k <<< 1) ^^^ 0x1021 else register start k <<< 1

theorem witness_CrcSteps : (let r := register (crc [0x31] ^^^ ((0x32 : Byte) ++ 0#8))
    r 0 = crc [0x31] ^^^ ((0x32 : Byte) ++ 0#8)
      ∧ ∀ k, k < 8 → r (k + 1) = if (r k).getLsbD 15 then (r k <<< 1) ^^^ 0x1021 else r k <<< 1) :=
  ⟨rfl, fun _ _ => rfl⟩

theorem witness_SelAssertionFixesOffer :
    (State.reset.link.sel = false ∧ State.reset.link.nrst = false ∧ State.reset.link.state = .closed
      ∧ State.reset.link.queue = OutFrame.hello .powerOn :: [])
    ∧ (let l := { fullWindow with cursor := 3 }
       l.sel = false ∧ l.nrst = false ∧ l.state = .opened ∧ l.cursor < 4
        ∧ l.queue[l.cursor]? = some { kind := .pass, seq := 1, payload := [], sent := true })
    ∧ (fullWindow.sel = false ∧ fullWindow.nrst = false ∧ fullWindow.state = .opened ∧ 4 ≤ fullWindow.cursor)
    ∧ (openLink.state = .opened ∧ openLink.queue.length ≤ openLink.cursor) := by decide

theorem witness_NrstResetsAndHoldsOffExchanges :
    (let l := { Link.reset .powerOn with nrst := true }
     l.sel = false ∧ l.nrst = true)
    ∧ (let l := { openLink with sel := true }
       l.sel = true ∧ l.exchange = none) := by decide

/-- An exchange whose offer is a queued frame of 9 bytes. -/
def queuedOffer : Exchange := { offer := List.replicate 9 0, queued := true }

/-- A frame that fails each check of R160: sync, LEN, length, CRC. -/
theorem witness_OfferSettlesAndInvalidFrameNoted :
    ({ queuedOffer with queued := false }).queued = false
    ∧ (List.replicate 8 (0 : Byte)).length < queuedOffer.offer.length
    ∧ (queuedOffer.queued = true ∧ queuedOffer.offer.length ≤ (List.replicate 9 (0 : Byte)).length
        ∧ startedLink.queue[startedLink.cursor]? = some (OutFrame.openReply 9 0 0))
    ∧ ((hearing openLink).link.sel = true ∧ (hearing openLink).link.exchange = some { offer := [], queued := false }
        ∧ readHostFrame [] = none)
    ∧ readByte [0x5B] 0 ≠ 0x5A ∧ 120 < readNat [0x5A, 121] 1 ∧ [0x5A, 0, 0, 0, 0, 0, 0].length < readNat [0x5A, 0] 1 + 8
    ∧ (let b : List Byte := [0x5A, 0, 0, 0, 0, 0, 0, 0]
       readHalf b (6 + readNat b 1) ≠ crc (places b 1 (5 + readNat b 1))) := by decide +kernel

/-- The frame that is read from the bytes of a frame. -/
def heardFrame (kind seq : Byte) (payload : List Byte) : HostFrame :=
  { kind := kind, seq := seq, ack := 0, resend := false, payload := payload }

/-- An exchange in which the host sends that frame, on the link `l`. -/
def hears (l : Link) (kind seq : Byte) (payload : List Byte) : Prop :=
  (hearing l).link.sel = true ∧ (hearing l).link.exchange = some { offer := [], queued := false }
    ∧ readHostFrame (hostFrameBytes kind seq 0 0 payload) = some (heardFrame kind seq payload)
    ∧ (hearing l).link.state = l.state

theorem hears_null : hears openLink 0 0 [] := ⟨rfl, rfl, by decide +kernel, rfl⟩
theorem hears_open (l : Link) : hears l 1 9 [] := ⟨rfl, rfl, by decide +kernel, rfl⟩
theorem hears_timeGet (l : Link) : hears l 3 10 [] := ⟨rfl, rfl, by decide +kernel, rfl⟩
theorem hears_stale : hears openLink 3 9 [] := ⟨rfl, rfl, by decide +kernel, rfl⟩
theorem hears_reset (l : Link) : hears l 2 10 [] := ⟨rfl, rfl, by decide +kernel, rfl⟩
theorem hears_long : hears openLink 3 10 [0] ∧ hears openLink 1 10 [0] ∧ hears openLink 0x55 10 [] :=
  ⟨⟨rfl, rfl, by decide +kernel, rfl⟩, ⟨rfl, rfl, by decide +kernel, rfl⟩, ⟨rfl, rfl, by decide +kernel, rfl⟩⟩

/-- The link as the frame finds it, after its ACK and RESEND. -/
def after (l : Link) (f : HostFrame) : Link := ((hearing l).offerSettled { offer := [], queued := false } []).link.heard f

/-- A link whose budget is used up. -/
def busyLink : Link := { openLink with accepted := List.replicate 8 (ref 7) }

/-- A NULL frame; a frame whose SEQ is not E; a frame that finds the use at 8. -/
theorem witness_FramesHeardButNotAccepted :
    (hears openLink 0 0 [] ∧ (heardFrame 0 0 []).kind = 0 ∧ openLink.state = .opened)
    ∧ (hears openLink 3 9 [] ∧ ¬ (heardFrame 3 9 []).isOpen ∧ (heardFrame 3 9 []).seq ≠ (after openLink (heardFrame 3 9 [])).e)
    ∧ (hears busyLink 3 10 [] ∧ 8 ≤ (after busyLink (heardFrame 3 10 [])).use) := by
  refine ⟨⟨hears_null, rfl, rfl⟩, ⟨hears_stale, fun h => absurd h.1 (by decide), by decide⟩, hears_timeGet _, by decide⟩

/-- Places 0 and 3 of a window of four sent frames, an ACK that names no sent frame, and a cursor at 0. -/
theorem witness_AcknowledgeResendAttention :
    (LinkLaw startedLink ∧ startedLink.state = .opened
      ∧ ∀ f, f ∈ startedLink.queue → f.sent = true → f.seq ≠ 0)
    ∧ (let l := Link.settle startedLink queuedOffer 9
       LinkLaw l ∧ l.state = .opened ∧ ∃ f, l.queue[0]? = some f ∧ f.sent = true ∧ f.seq = 0)
    ∧ (startedLink.cursor = 0 ∧ startedLink.attn = startedLink.attnDue) := by
  refine ⟨⟨witness_QueueBounds.1, rfl, by decide⟩, ⟨?_, rfl, _, rfl, rfl, rfl⟩, by decide⟩
  exact (witness_QueueBounds.1.congr (m := { startedLink with exchange := none }) rfl rfl rfl rfl (fun h => nomatch h) rfl
    rfl rfl).markSent _ rfl rfl rfl rfl

theorem witness_RequestAcceptedAndRouted :
    (let f := heardFrame 3 10 []
     hears openLink 3 10 [] ∧ f.seq = (after openLink f).e ∧ (after openLink f).use < 8 ∧ f.kind = ReqKind.timeGet.code
      ∧ f.payload.length = ReqKind.timeGet.len)
    ∧ (asked .timeGet []).kind = .timeGet ∧ (asked .resultFetch []).kind = .resultFetch
    ∧ (asked .probeGet []).kind ∈ [ReqKind.probeSet, .probeClear, .probeGet]
    ∧ (asked .sweepGet []).kind ∈ [ReqKind.sweepSet, .sweepClear, .sweepArm, .sweepFire, .sweepStop, .sweepGet]
    ∧ (asked .portGet [2]).kind ∈ [ReqKind.portSet, .portGet, .portClear, .portXfer]
    ∧ readNat (asked .portGet [2]).payload 0 = (2 : PortNo).val ∧ 2 < readNat (asked .portGet [3]).payload 0
    ∧ (asked .analogGet []).kind ∈ [ReqKind.analogSet, .analogGet]
    ∧ (asked .watchGet []).kind ∈ [ReqKind.watchGet, .watchReset] := by
  refine ⟨⟨hears_timeGet _, ?_⟩, ?_⟩ <;> decide

/-- A known request of a wrong LEN, an OPEN with a payload, and an unknown KIND. -/
theorem witness_LinkRefusesAtOnce :
    (hears openLink 3 10 [0] ∧ hears openLink 1 10 [0] ∧ hears openLink 0x55 10 [])
    ∧ (heardFrame 3 10 [0]).seq = (after openLink (heardFrame 3 10 [0])).e ∧ (after openLink (heardFrame 3 10 [0])).use < 8
    ∧ (∀ r, r ∈ (after openLink (heardFrame 3 10 [0])).accepted → r.id ≠ (after openLink (heardFrame 3 10 [0])).nextId)
    ∧ ((heardFrame 3 10 [0]).kind = ReqKind.timeGet.code ∧ (heardFrame 3 10 [0]).payload.length ≠ ReqKind.timeGet.len)
    ∧ ((heardFrame 1 10 [0]).kind = 0x01 ∧ (heardFrame 1 10 [0]).payload ≠ [])
    ∧ (∀ k, k ∈ ReqKind.all → (heardFrame 0x55 10 []).kind ≠ k.code) ∧ (heardFrame 0x55 10 []).kind ∉ [0x00, 0x01, 0x02] := by
  refine ⟨hears_long, ?_⟩
  decide

/-- The link of reset in an exchange. -/
theorem witness_ClosedLinkAttendsToOpenOnly :
    LinkLaw (hearing (Link.reset .powerOn)).link ∧ hears (Link.reset .powerOn) 1 9 [] ∧ (heardFrame 1 9 []).isOpen
      ∧ hears (Link.reset .powerOn) 3 10 [] ∧ ¬ (heardFrame 3 10 []).isOpen ∧ (Link.reset .powerOn).state = .closed := by
  refine ⟨?_, hears_open _, ⟨rfl, rfl⟩, hears_timeGet _, fun h => absurd h.1 (by decide), rfl⟩
  exact { LinkLaw.reset .powerOn true false with offered := by rintro x ⟨⟩ ⟨⟩ }

theorem witness_OpenRestartsLink : hears openLink 1 9 [] ∧ (heardFrame 1 9 []).isOpen ∧ openLink.state = .opened :=
  ⟨hears_open _, ⟨rfl, rfl⟩, rfl⟩

theorem witness_DeviceResetRequest : hears openLink 2 10 [] ∧ (heardFrame 2 10 []).kind = 0x02
    ∧ (heardFrame 2 10 []).payload = [] ∧ openLink.state = .opened
    ∧ (heardFrame 2 10 []).seq = (after openLink (heardFrame 2 10 [])).e ∧ (after openLink (heardFrame 2 10 [])).use < 8 :=
  ⟨hears_reset _, rfl, rfl, rfl, by decide, by decide⟩

/-- Two requests held; and one of an orphan set. -/
theorem witness_ReplyAppendedOrDiscarded :
    (let l := { openLink with accepted := [ref 6, ref 7] }
     l.accepted = [ref 6] ++ ref 7 :: [] ∧ ∀ r, r ∈ [ref 6] → r.id ≠ (ref 7).id)
    ∧ (let l := { openLink with accepted := [ref 6], orphans := [ref 7] }
       (∀ r, r ∈ l.accepted → r.id ≠ (ref 7).id) ∧ l.orphans = [] ++ ref 7 :: []) := by decide

theorem witness_EventAdmission :
    (let f : OutFrame := { kind := .pass, seq := 0, payload := [], sent := false }
     (List.replicate 15 f).countP OutFrame.isEvent < 16 ∧ 16 ≤ (List.replicate 16 f).countP OutFrame.isEvent) := by
  decide

/-! ### What the statements assume: Probe Table and Sweep Engine -/

/-- Slot and sweep numbers at the ends of their ranges. -/
theorem number_bounds : 63 < readNat [64] 0 ∧ readNat [63] 0 = (63 : Fin 64).val ∧ readNat [0] 0 = (0 : Fin 64).val
    ∧ 7 < readNat [8] 0 ∧ readNat [7] 0 = (7 : Fin 8).val ∧ readNat [3] 0 = (3 : Fin 8).val := by decide

theorem witness_ReadingRequestsReport :
    (let s : State := { State.reset with hand := { HandOff.reset with timeBase := [asked .timeGet []] } }
     s.hand.timeBase = asked .timeGet [] :: [])
    ∧ (probeAsked .probeGet [64]).hand.probeTable = asked .probeGet [64] :: []
    ∧ (sweepAsked .sweepGet [7] .idle definition3 none).hand.sweepEngine = asked .sweepGet [7] :: []
    ∧ ((sweepAsked .sweepGet [7] .idle definition3 none).sweep 7).armExpiry = false := by
  refine ⟨rfl, rfl, rfl, by decide⟩

/-- Stored (slot 4 is in no active sweep); refused for its number, for its record, and as in use. -/
theorem witness_ProbeSetCases :
    ((probeAsked .probeSet payload4).hand.probeTable = asked .probeSet payload4 :: []
      ∧ readNat payload4 0 = (4 : Fin 64).val
      ∧ readProbe payload4 = some record4
      ∧ (∀ i, ((probeAsked .probeSet payload4).sweep i).state = .empty ∨ ((probeAsked .probeSet payload4).sweep i).state = .idle
          ∨ (4 : Fin 64) ∉ ((probeAsked .probeSet payload4).sweep i).list))
    ∧ (63 < readNat [64] 0 ∧ readNat [63] 0 = (63 : Fin 64).val ∧ readProbe [63] = none)
    ∧ (let s := demo .armed definition3 none
       (s.sweep 3).state ≠ .empty ∧ (s.sweep 3).state ≠ .idle ∧ (4 : Fin 64) ∈ (s.sweep 3).list)
    ∧ idleDemo.inbox = []
    ∧ ((watchAsked .watchGet [4]).inbox = .request (asked .watchGet [4]) :: []
        ∧ (next .watchGet (watchAsked .watchGet [4])).isSome = true)
    ∧ ((watchAsked .watchReset [4]).inbox = .request (asked .watchReset [4]) :: []
        ∧ (next .watchReset (watchAsked .watchReset [4])).isSome = true)
    ∧ (let s := copied (ended 0 4 record4 .done [1, 2]) WatchSlot.reset
       s.inbox = .copy (ended 0 4 record4 .done [1, 2]) :: [] ∧ (next .completionCopy s).isSome = true) := by
  refine ⟨⟨rfl, ?_⟩, ?_, ?_, ?_⟩ <;> decide +kernel

/-- Slot 4 is counted, slot 63 is EMPTY, slot 5 is DEFINED and not counted. -/
theorem witness_ProbeClearCases : (probeAsked .probeClear [4]).hand.probeTable = asked .probeClear [4] :: []
    ∧ 63 < readNat [64] 0 ∧ 0 < (idleDemo.slot 4).refs
    ∧ ((idleDemo.slot 63).refs = 0 ∧ (idleDemo.slot 63).record = none)
    ∧ ((idleDemo.slot 5).refs = 0 ∧ (idleDemo.slot 5).record ≠ none) := by
  refine ⟨rfl, ?_⟩; decide +kernel

/-- Defined anew; refused for its number, its state, its source, its list, and an EMPTY slot. -/
theorem witness_SweepSetCases :
    (let s := sweepAsked .sweepSet payload3 .idle definition3 none
     s.hand.sweepEngine = asked .sweepSet payload3 :: [] ∧ sweepOf payload3 = some 3 ∧ readSweep payload3 = .ok definition3
      ∧ (s.sweep 3).armExpiry = false ∧ (s.sweep 3).state = .idle
      ∧ (∀ k, k ∈ definition3.list → (s.slot k).record.isSome = true))
    ∧ 7 < readNat [8] 0 ∧ ((demo .stopping definition3 none).sweep 3).state = .stopping
    ∧ readSource [7, 0] = none ∧ readSource [7, 2] ≠ none ∧ policiesOk [7, 2] = true ∧ sweepListOk [7, 2] = false
    ∧ ((State.reset.slot 4).record = none ∧ ∀ j : Fin 64, j.val < 4 → j ∈ definition3.list → (State.reset.slot j).record ≠ none)
    := by
  refine ⟨⟨rfl, ?_⟩, ?_⟩ <;> decide +kernel

theorem witness_SweepClearAndArmCases :
    (sweepAsked .sweepClear [3] .idle definition3 none).hand.sweepEngine = asked .sweepClear [3] :: []
    ∧ (sweepAsked .sweepArm [3] .idle definition3 none).hand.sweepEngine = asked .sweepArm [3] :: []
    ∧ (idleDemo.sweep 3).armExpiry = false ∧ (idleDemo.sweep 3).state = .idle ∧ (idleDemo.sweep 3).defn = some definition3
    ∧ (idleDemo.sweep 7).state = .empty ∧ ((demo .running definition3 none).sweep 3).state = .running
    ∧ definition3.source = .period 10 4 := by
  refine ⟨rfl, rfl, ?_⟩; decide +kernel

/-- A sweep whose pass numbers are exhausted. -/
def exhausted (st : SweepState) (d : SweepDef) (run : Option RunningPass) : State :=
  let s := demo st d run
  { s with sweeps := s.sweeps.set 3 { s.sweep 3 with started := 0xFFFFFFFF } }

theorem witness_TriggersAndFire :
    (let s := demo .armed definition3 none
     (s.sweep 3).defn = some definition3 ∧ (s.sweep 3).state = .armed ∧ (s.sweep 3).started ≠ 0xFFFFFFFF)
    ∧ (let s := demo .running (definition .host .restart .halt 0) (pass [.pending, .pending])
       (s.sweep 3).state = .running ∧ (s.sweep 3).started ≠ 0xFFFFFFFF)
    ∧ ((exhausted .armed definition3 none).sweep 3).state = .armed
    ∧ ((exhausted .running definition3 (pass [.pending, .pending])).sweep 3).started = 0xFFFFFFFF
    ∧ definition3.overrun = .skip ∧ (definition .host .restart .halt 0).overrun = .restart
    ∧ ((demo .stopping definition3 none).sweep 3).state = .stopping ∧ (State.reset.sweep 7).state = .empty
    ∧ (sweepAsked .sweepFire [3] .armed definition3 none).hand.sweepEngine = asked .sweepFire [3] :: []
    ∧ ((sweepAsked .sweepFire [3] .armed definition3 none).sweep 3).armExpiry = false := by
  refine ⟨?_, ?_, ?_, ?_, rfl, rfl, ?_, rfl, ?_⟩ <;> decide +kernel

/-- Sweep 3 armed with phase 0 in this microsecond, and a SWEEP.STOP after it. -/
def armedNow : State :=
  let s := sweepAsked .sweepStop [3] .armed (definition (.period 10 0) .skip .continue 0) none
  { s with sweeps := s.sweeps.set 3 { s.sweep 3 with timer := some 0, armExpiry := true } }

theorem witness_PeriodExpiryTriggers :
    (((expiring .armed none).sweep 3).timer = some (expiring .armed none).time
      ∧ ((expiring .armed none).sweep 3).defn = some definition3 ∧ definition3.source = .period 10 4)
    ∧ (armedNow.hand.sweepEngine = asked .sweepStop [3] :: [] ∧ readNat (asked .sweepStop [3]).payload 0 = (3 : SweepNo).val
        ∧ (armedNow.sweep 3).armExpiry = true ∧ (armedNow.sweep 3).timer = some armedNow.time
        ∧ (next (.periodExpiry 3) armedNow).isSome = true) := by
  refine ⟨?_, rfl, ?_⟩ <;> decide +kernel

/-- R27: the STOP finds the pass that the first expiry started. -/
theorem test_arm_expiry : (next .sweepStop armedNow).map (fun s => ((s.sweep 3).started, (s.sweep 3).timer)) = some (1, none) := by
  decide +kernel

/-- Lists of 2 and of 16 slots; the other hypotheses name the work page, the pages and the requests they define. -/
theorem witness_PassStarts : (definition3.list).length ≤ 16 ∧ (List.replicate 16 (0 : Fin 64)).length ≤ 16 := by decide

/-- As for PassStarts; one position whose request the withdrawal removes, and one that is granted. -/
theorem witness_PassAbandoned : (definition3.list).length ≤ 16
    ∧ (let s := atPort 0 { Port.reset with arb := { Arbiter.reset with pending := [entry 0 4 record4 1] } }
       (0 : Fin 16) ∈ s.withdrawn 3 ∧ (1 : Fin 16) ∉ s.withdrawn 3) := by
  refine ⟨?_, ?_⟩ <;> decide +kernel

theorem witness_WithdrawalAndHalt :
    ((idleDemo.port 2).arb.issues = [] ∧ idleDemo.conv.arb.issues = [])
    ∧ (let s := completing .running (definition .host .skip .halt 0) [.complete, .pending] (ended 1 9 record9 .portBlocked [])
       ∀ k, k ∈ definition3.positions → k.val < (s.sweep 3).positions.length)
    ∧ (let s := atPort 2 { Port.reset with arb := { Arbiter.reset with issues := [request 0 4 record4] } }
       (s.port 2).arb.issues ≠ [] ∧ (next (.arbiterTakesIssue (.tw 2)) s).isSome = true)
    ∧ (let s := atConverter { Converter.reset with arb := { Arbiter.reset with issues := [request 1 9 record9] } } 0
       s.conv.arb.issues ≠ [] ∧ (next (.arbiterTakesIssue .analog) s).isSome = true) := by
  refine ⟨?_, ?_, ?_, ?_⟩ <;> decide +kernel

/-- SWEEP.STOP in each state; running with both requests granted (two remnants) and with none (no remnant). -/
theorem witness_SweepStopCases :
    (sweepAsked .sweepStop [3] .idle definition3 none).hand.sweepEngine = asked .sweepStop [3] :: []
    ∧ (idleDemo.sweep 3).armExpiry = false ∧ (idleDemo.sweep 7).state = .empty ∧ (idleDemo.sweep 3).state = .idle
    ∧ ((demo .armed definition3 none).sweep 3).state = .armed ∧ ((demo .stopping definition3 none).sweep 3).state = .stopping
    ∧ (let s := demo .running definition3 (pass [.pending, .pending])
       (s.sweep 3).state = .running ∧ (s.sweep 3).defn = some definition3
        ∧ 2 = definition3.positions.countP (fun k =>
            decide ((s.sweep 3).positions[k.val]? ≠ some .complete ∧ k ∉ s.withdrawn 3)))
    ∧ (let s := demo .running definition3 (pass [.complete, .complete])
       0 = definition3.positions.countP (fun k =>
            decide ((s.sweep 3).positions[k.val]? ≠ some .complete ∧ k ∉ s.withdrawn 3))) := by
  refine ⟨rfl, ?_⟩; decide +kernel

/-! ### What the statements assume: Result Store and publication -/

/-- Waits of 1 ms and of 60000 ms; an orphan that would wait; a full waiter list. -/
theorem witness_FetchCases :
    (fetchAsked [3] idleDemo).hand.resultStore = asked .resultFetch [3] :: []
    ∧ readFetch [8, 0, 1, 0] = none
    ∧ readFetch ([3, 15, 1, 0] ++ be32 0 ++ be16 0) = some { sweep := 3, first := 15, count := 1, mode := .latest }
    ∧ readFetch [3, 0, 16, 1, 0, 0, 0, 5] = some { sweep := 3, first := 0, count := 16, mode := .exact 5 }
    ∧ readFetch [3, 0, 1, 2, 0, 0, 0, 0, 0xEA, 0x60] = some { sweep := 3, first := 0, count := 1, mode := .newer 0 60000 }
    ∧ (let g := (idleDemo.pagesOf 3).published
       g.pass = 0 ∧ g.pass ≠ 5 ∧ g.pass.toNat ≤ (0 : Word).toNat)
    ∧ (0 : Word).toNat < ({ Page.cleared with pass := 1 }).pass.toNat
    ∧ (idleDemo.sweep 3).state.triggerable = false ∧ ((demo .armed definition3 none).sweep 3).state.triggerable = true
    ∧ 4 ≤ (List.replicate 4 (waiter 0 0)).length ∧ (List.replicate 3 (waiter 0 0)).length < 4
    ∧ ref 7 ∈ idleDemo.link.accepted
    ∧ (let l := { openLink with accepted := [], orphans := [ref 7] }
       (∀ q, q ∈ l.accepted → q.id ≠ (ref 7).id) ∧ l.orphans = [] ++ ref 7 :: []) := by
  refine ⟨rfl, ?_⟩; decide +kernel

/-- The whole page and its last record; a cut after the sixth of ten records; a record of 8 bytes and 4 attempts. -/
theorem witness_FetchPacksWholeRecords : 0 + 16 ≤ 16 ∧ 15 + 1 ≤ 16 ∧ 6 < 10
    ∧ Page.cleared.records.toList[0 + 6]? = some Record.cleared
    ∧ 1 ≤ 1 ∧ Page.cleared.records.toList[15]? = some Record.cleared
    ∧ (let r := { Record.cleared with attempts := 4, data := List.replicate 8 0 }
       (15 : Nat) ≤ 15 ∧ r.attempts ≤ 4 ∧ r.data.length ≤ 8) := by decide

theorem witness_WaitersLeave :
    (let s : State := { demo .armed definition3 none with waiters := [waiter 1 0] }
     s.waiters[0]? = some (waiter 1 0) ∧ (waiter 1 0).deadline = s.time) := by decide +kernel

/-- The pages after the publication of sweep 3's work page, page A published before. -/
theorem witness_PublicationInOrder :
    ∃ a : State, ∃ g : Page,
      a.pages = idleDemo.pages.set 3 (if (idleDemo.pagesOf 3).publishedB
        then { a := g, b := (idleDemo.pagesOf 3).b, publishedB := false, workUsed := false }
        else { a := (idleDemo.pagesOf 3).a, b := g, publishedB := true, workUsed := false })
      ∧ a = { idleDemo with pages := a.pages, sweeps := idleDemo.sweeps.set 3 (idleDemo.sweep 3) } :=
  ⟨{ idleDemo with
      pages := idleDemo.pages.set 3 (if (idleDemo.pagesOf 3).publishedB
        then { a := Page.cleared, b := (idleDemo.pagesOf 3).b, publishedB := false, workUsed := false }
        else { a := (idleDemo.pagesOf 3).a, b := Page.cleared, publishedB := true, workUsed := false })
      sweeps := idleDemo.sweeps.set 3 (idleDemo.sweep 3) }, Page.cleared, rfl, rfl⟩

/-- A completion written, one that halts, one of a DEFERRED position, and remnants: two, and the last. -/
theorem witness_CompletionHandled :
    (let s := completing .running definition3 [.complete, .pending] (ended 1 9 record9 .done [7, 0xFF])
     (s.arb .analog).done = ended 1 9 record9 .done [7, 0xFF] :: [] ∧ (s.sweep 3).state = .running
      ∧ (s.sweep 3).defn = some definition3 ∧ (s.sweep 3).run = pass [.complete, .pending])
    ∧ [PosState.complete, .pending][(1 : Fin 16).val]? = some .pending ∧ definition3.faultPolicy = .continue
    ∧ ((ended 1 9 record9 .portBlocked []).status ≠ .done ∧ (definition .host .skip .halt 0).faultPolicy = .halt)
    ∧ [PosState.complete, .deferred][(1 : Fin 16).val]? = some .deferred
    ∧ (let w : Sweep := { Sweep.reset with state := .stopping, defn := some definition3, remnant := 2 }
       w.state = .stopping ∧ 1 < w.remnant)
    ∧ (let w : Sweep := { Sweep.reset with state := .stopping, defn := some definition3, remnant := 1, held := [ref 7] }
       w.state = .stopping ∧ w.remnant = 1) := by
  refine ⟨⟨rfl, ?_⟩, ?_⟩ <;> decide +kernel

/-! ### What the statements assume: arbiters, ports and converter -/

theorem witness_ArrivalsTaken :
    (let s := atPort 2 { portWith .blocked none with
       arb := { Arbiter.reset with issues := [request 0 4 record4] }, arrivals := [transfer] }
     (s.port 2).arb.issues = request 0 4 record4 :: [] ∧ (s.port 2).arrivals = transfer :: []
      ∧ (s.port 2).state = .blocked)
    ∧ (portWith .active (some reading4)).state = .active
    ∧ (List.replicate 7 transfer).length < 8 ∧ 8 ≤ (List.replicate 8 transfer).length
    ∧ (let a : Arbiter := { Arbiter.reset with issues := [request 1 9 record9] }
       a.issues = request 1 9 record9 :: []) := by
  refine ⟨?_, ?_⟩ <;> decide +kernel

theorem witness_GrantsInOrder :
    (let q := { portWith .idle none with transfers := [{ xfer := transfer, age := 1 }] }
     q.granted = none ∧ q.state ≠ .blocked ∧ q.transfers ≠ [])
    ∧ (let q := { portWith .idle none with arb := { Arbiter.reset with pending := [entry 0 4 record4 1] } }
       q.granted = none ∧ q.state ≠ .blocked ∧ q.transfers = [] ∧ q.arb.pending ≠ []
        ∧ (entry 0 4 record4 1).req.copy.body = .twoWire
            { port := 0, mode := .seven, addr := 72, index := [0], prelude := none, readLen := 2, retries := 1 })
    ∧ (let c := { Converter.reset with arb := { Arbiter.reset with pending := [entry 1 9 record9 51] } }
       c.granted = none ∧ c.arb.pending ≠ []) := by decide

/-- A configuration held at the end of a grant, and none. -/
theorem witness_GrantEndsAndPortEmpties :
    (let q := { portWith .idle none with held := some { config := PortConfig.reset, ref := ref 7 } }
     q.held = some { config := PortConfig.reset, ref := ref 7 }) ∧ Port.reset.held = none := by decide

/-- A prelude with settle time 15 ms; the same with none. -/
theorem witness_PreludeAndSettle :
    (let q := portWith .active (some (.probe (entry 1 5 record5 1) .prelude 1))
     q.granted = some { work := .probe (entry 1 5 record5 1) .prelude 1, config := PortConfig.reset } ∧ q.stretch = none)
    ∧ ({ bytes := [0x2C], settle := 15 } : Prelude).settle ≠ 0 ∧ ({ bytes := [0x2C], settle := 0 } : Prelude).settle = 0
    ∧ (let m : Settling := { entry := entry 1 5 record5 1, expiry := 0 }
       [m][0]? = some m ∧ m.expiry = State.reset.time) := by decide

/-- Place 1 of slot 4's read phase is its address byte, place 2 its index byte; the last attempt is its second. -/
theorem witness_ReadPhaseAndNaks :
    (let q := portWith .active (some reading4)
     q.granted = some { work := reading4, config := PortConfig.reset } ∧ q.stretch = none)
    ∧ [0x01, (0x2C : Byte)].length = (entry 0 4 record4 1).req.copy.dataLength
    ∧ reading4.sequence[1]? = some (.address 0x90) ∧ reading4.sequence[2]? = some (.write 0x00) ∧ 1 < 1 + 1 ∧ 1 + 1 ≤ 2
    ∧ (let w : PortWork := .transfer { xfer := transfer, age := 1 }
       w.sequence[1]? = some (.address 0x90) ∧ w.sequence[2]? = some (.write 0x01)) := by decide

theorem witness_BlockingFaultsBlock :
    (let q := { portWith .active (some reading4) with stretch := some (State.reset.time) }
     q.granted = some { work := reading4, config := PortConfig.reset } ∧ q.stretch = some State.reset.time)
    ∧ (portWith .active (some (.transfer { xfer := transfer, age := 1 }))).granted.isSome = true
    ∧ (portWith .clearing (some (.clear (ref 7) 9))).granted.isSome = true := by decide

theorem witness_StretchTransferClear :
    (let q := portWith .active (some (.transfer { xfer := transfer, age := 1 }))
     q.granted.isSome = true ∧ q.stretch = none) ∧ [5, (6 : Byte)].length = transfer.readLen
    ∧ (let q := portWith .clearing (some (.clear (ref 7) 0))
       q.granted = some { work := .clear (ref 7) 0, config := PortConfig.reset } ∧ q.stretch = none)
    ∧ 0 ≤ 0 ∧ 0 ≤ 9 ∧ 9 ≤ 9 := by decide

/-- A stretch timeout of 0 and one of 100 ms; a port with and without a granted entry and a held configuration. -/
theorem witness_PortSetCases :
    (portAsked .portSet [0, 1, 100] Port.reset).hand.tw[0] = asked .portSet [0, 1, 100] :: []
    ∧ readPortConfig [0, 1, 0] = none ∧ readPortConfig [0, 1, 100] = some { rate := .r400, stretchMs := 100 }
    ∧ Port.reset.granted = none
    ∧ (let q := { portWith .active (some reading4) with held := some { config := PortConfig.reset, ref := ref 6 } }
       q.granted ≠ none ∧ q.held = some { config := PortConfig.reset, ref := ref 6 })
    ∧ (portWith .active (some reading4)).granted ≠ none ∧ (portWith .active (some reading4)).held = none := by
  refine ⟨rfl, ?_⟩; decide

/-- Sixteen write byte places; transfers before a PORT.CLEAR at a port that places them, and none. -/
theorem witness_PortRequestCases :
    (portAsked .portGet [0] Port.reset).hand.tw[0] = asked .portGet [0] :: []
    ∧ (portAsked .portXfer payloadX Port.reset).hand.tw[0] = asked .portXfer payloadX :: []
    ∧ readTransfer (ref 7) payloadX = some transfer ∧ readTransfer (ref 7) [0, 8] = none
    ∧ (portAsked .portClear [0] Port.reset).hand.tw[0] = asked .portClear [0] :: [] ∧ Port.reset.state ≠ .blocked
    ∧ (portWith .blocked none).state = .blocked
    ∧ (List.replicate 16 (0 : Byte)).length = 16
    ∧ (let s := atPort 0 { Port.reset with arrivals := [transfer] }
       (s.port 0).arrivals ≠ [] ∧ (next (.hostEntryArrival 0) s).isSome = true) ∧ (State.reset.port 0).arrivals = []
    ∧ (blockAsked .portSet [3]).hand.portsBlock = asked .portSet [3] :: [] := by
  refine ⟨rfl, rfl, ?_, ?_, rfl, ?_, ?_, ?_, ?_, ?_, rfl⟩ <;> decide +kernel

/-- Delays of 0, 1, 250 and 251 ms, in READY and outside it. -/
theorem witness_AnalogRequests :
    (converterAsked .analogSet [5] Converter.reset 0).hand.converter = asked .analogSet [5] :: []
    ∧ (converterAsked .analogGet [] Converter.reset 0).hand.converter = asked .analogGet [] :: []
    ∧ 250 < (readByte [251] 0).toNat ∧ (readByte [250] 0).toNat ≤ 250 ∧ (1 : Byte) ≠ 0 ∧ readByte [0] 0 = 0
    ∧ Converter.reset.power ≠ .ready ∧ ({ Converter.reset with power := .ready }).power = .ready := by
  refine ⟨rfl, rfl, ?_⟩; decide

/-- The end of a wake at 50 µs, of the last of eight samples at 8 × 20 µs, and an idle timer at its time. -/
theorem witness_ConverterEvents :
    (let g := { converting9 0 0 with since := 700000 }
     (700050 : Time) = g.since + 50)
    ∧ ((converting9 7 0).entry.req.copy.body = .analog { input := 3, samples := 8 } ∧ (converting9 7 0).taken + 1 = 8
        ∧ (700210 : Time) = (converting9 7 0).since + BitVec.ofNat 32 (20 * 8))
    ∧ (let s := atConverter { Converter.reset with power := .ready, idleTimer := some 706000 } 706000
       s.conv.idleTimer = some s.time ∧ s.conv.power = .ready)
    ∧ (let c := { Converter.reset with power := .waking, granted := some (converting9 0 0) }
       c.power = .waking ∧ c.granted = some (converting9 0 0)) := by decide

/-! ### What the statements assume: Watch Unit -/

/-- Offset 6 of 8 bytes, the last that a width of 2 allows. -/
theorem witness_WatchedValue :
    (let data : List Byte := [0, 0, 0, 0, 0, 0, 0xFE, 0x70]
     data[6]? = some 0xFE ∧ data[6 + 1]? = some 0x70) := by decide

/-- Values on either side of the limits −400 and 850 of slot 4, and of both hysteresis bounds. -/
theorem witness_WatchEvaluation : (-400 : Int) ≤ 850 ∧ (-401 : Int) < -400 ∧ (850 : Int) < 851
    ∧ ((-400 : Int) + (20 : Nat) ≤ -380 ∧ (-381 : Int) < -400 + (20 : Nat))
    ∧ ((830 : Int) ≤ 850 - (20 : Nat) ∧ (850 : Int) - (20 : Nat) < 831) := by decide

/-- A fault below the limit 3, at it, and when FAILING; DONE copies with and without a watch part. -/
theorem witness_CopiesTaken :
    (let s := copied (ended 0 4 record4 .addrNak []) { WatchSlot.reset with faults := 2 }
     s.inbox = .copy (ended 0 4 record4 .addrNak []) :: [] ∧ (s.watch 4).health = .good
      ∧ (s.watch 4).faults + 1 = record4.faultLimit)
    ∧ (ended 0 4 record4 .addrNak []).status ≠ .done ∧ WatchSlot.reset.faults + 1 < record4.faultLimit
    ∧ (let w : WatchSlot := { watch := .unknown, health := .failing, faults := 3 }
       w.health = .failing ∧ w.faults = record4.faultLimit)
    ∧ ((ended 0 4 record4 .done [1, 2]).status = .done ∧ record4.watch ≠ none ∧ record5.watch = none) := by
  decide +kernel

theorem witness_WatchRequests : (watchAsked .watchGet [63]).inbox = .request (asked .watchGet [63]) :: []
    ∧ (watchAsked .watchReset [64]).inbox = .request (asked .watchReset [64]) :: []
    ∧ 63 < readNat [64] 0 ∧ readNat [63] 0 = (63 : Fin 64).val := by
  refine ⟨rfl, rfl, ?_⟩; decide

end Sys2Proof.Tests
end

section
/-! PROOFS. Events and the Watch Unit's reading of a copy: event admission (R145), the watched value (R138) and
Table 8-1 (R139). -/

namespace Sys2Proof.Machine

/-! ### Event admission (R145) -/

/-- A saturating count that rises by 1. -/
theorem satAdd_one (limit n : Nat) : satAdd limit n 1 = if n < limit then n + 1 else limit := by
  unfold satAdd
  split <;> omega

/-- The room that decides an admission is counted in event frames of the queue, whatever else stands there. -/
theorem Link.events_eq_countP (l : Link) : l.events = l.queue.countP OutFrame.isEvent := rfl

/-- Settles O29: of the two things an offered event can do, the event frames in the queue choose one. -/
theorem eventAdmission : Obligations.EventAdmission := by
  unfold Obligations.EventAdmission
  intro s kind items
  rw [← Link.events_eq_countP]
  rcases s.offerEvent_cases kind items with ⟨room, admitted⟩ | ⟨full, discarded⟩
  · exact ⟨fun _ => admitted, fun full => absurd room (Nat.not_lt.2 full)⟩
  · exact ⟨fun room => absurd room (Nat.not_lt.2 full), fun _ => by rw [discarded, satAdd_one]⟩

/-! ### The unsigned number in the watched bytes (R138) -/

theorem readNat_of_getElem? {data : List Byte} {k : Nat} {a : Byte} (h : data[k]? = some a) :
    readNat data k = a.toNat := by
  simp [readNat, readByte, h]

/-- Two bytes side by side are the number with the left one as its high byte. -/
theorem byte_append_toNat (a b : Byte) : (a ++ b).toNat = 256 * a.toNat + b.toNat := by
  rw [BitVec.toNat_append, ← Nat.shiftLeft_add_eq_or_of_lt b.isLt, Nat.shiftLeft_eq, Nat.mul_comm]

theorem WatchPart.raw_of_width_one {w : WatchPart} {data : List Byte} {a : Byte} (hw : w.width = 1)
    (ha : data[w.offset]? = some a) : w.raw data = a.toNat := by
  simp [WatchPart.raw, hw, readNat_of_getElem? ha]

theorem WatchPart.raw_of_big {w : WatchPart} {data : List Byte} {a b : Byte} (hw : w.width = 2)
    (ho : w.order = .big) (ha : data[w.offset]? = some a) (hb : data[w.offset + 1]? = some b) :
    w.raw data = (a ++ b).toNat := by
  simp [WatchPart.raw, hw, ho, readNat_of_getElem? ha, readNat_of_getElem? hb, byte_append_toNat]

theorem WatchPart.raw_of_little {w : WatchPart} {data : List Byte} {a b : Byte} (hw : w.width = 2)
    (ho : w.order = .little) (ha : data[w.offset]? = some a) (hb : data[w.offset + 1]? = some b) :
    w.raw data = (b ++ a).toNat := by
  simp [WatchPart.raw, hw, ho, readNat_of_getElem? ha, readNat_of_getElem? hb, byte_append_toNat, Nat.add_comm]

/-! ### Its signedness (R138) -/

/-- Two's complement as the model computes it: from half the range on, the range is subtracted. -/
theorem toInt_eq_of_half {n : Nat} (x : BitVec (n + 1)) :
    (if 2 ^ n ≤ x.toNat then (x.toNat : Int) - 2 * (2 ^ n : Nat) else x.toNat) = x.toInt := by
  have range : 2 ^ (n + 1) = 2 * 2 ^ n := Nat.pow_succ'
  rw [BitVec.toInt_eq_toNat_cond, range]
  split <;> split <;> omega

theorem WatchPart.value_unsigned {w : WatchPart} (hs : w.sign = .unsigned) (data : List Byte) :
    w.value data = w.raw data := by
  simp [WatchPart.value, hs]

theorem WatchPart.value_signed_of_width_one {w : WatchPart} {data : List Byte} {x : BitVec 8} (hw : w.width = 1)
    (hs : w.sign = .signed) (hx : w.raw data = x.toNat) : w.value data = x.toInt := by
  rw [← toInt_eq_of_half x]
  simp [WatchPart.value, hw, hs, hx]

theorem WatchPart.value_signed_of_width_two {w : WatchPart} {data : List Byte} {x : BitVec 16} (hw : w.width = 2)
    (hs : w.sign = .signed) (hx : w.raw data = x.toNat) : w.value data = x.toInt := by
  rw [← toInt_eq_of_half x]
  simp [WatchPart.value, hw, hs, hx]

/-- Settles O57: the unsigned number by width and byte order, then its signedness. -/
theorem watchedValue : Obligations.WatchedValue := by
  unfold Obligations.WatchedValue
  intro w data a b ha
  refine ⟨fun hw hs => ?_, fun hw hs => ?_, fun hw hb => ⟨fun ho hs => ?_, fun ho hs => ?_, fun ho hs => ?_,
    fun ho hs => ?_⟩⟩
  · rw [w.value_unsigned hs, w.raw_of_width_one hw ha]
  · exact w.value_signed_of_width_one hw hs (w.raw_of_width_one hw ha)
  · rw [w.value_unsigned hs, w.raw_of_big hw ho ha hb, byte_append_toNat]
    norm_cast
  · rw [w.value_unsigned hs, w.raw_of_little hw ho ha hb, byte_append_toNat, Nat.add_comm]
    norm_cast
  · exact w.value_signed_of_width_two hw hs (w.raw_of_big hw ho ha hb)
  · exact w.value_signed_of_width_two hw hs (w.raw_of_little hw ho ha hb)

/-! ### Table 8-1 (R139) -/

section
variable (v low high : Int) (y : Nat)

/-- From UNKNOWN and NORMAL the limits alone decide; the hysteresis has no part in it. -/
theorem evaluate_of_unknown_or_normal {before : WatchState} (h : before = .unknown ∨ before = .normal) :
    evaluate before v low high y = if v < low then .low else if high < v then .high else .normal := by
  rcases h with rfl | rfl <;> rfl

theorem evaluate_of_low : evaluate .low v low high y =
    if high < v then .high else if low + y ≤ v ∧ v ≤ high then .normal else .low := rfl

theorem evaluate_of_high : evaluate .high v low high y =
    if v < low then .low else if v ≤ high - y ∧ low ≤ v then .normal else .high := rfl

end

/-- Settles O58: row by row; `low ≤ high` keeps a value from lying outside both limits at once. -/
theorem watchEvaluation : Obligations.WatchEvaluation := by
  unfold Obligations.WatchEvaluation
  intro v low high y limits
  refine ⟨fun before hb => ?_, ?_, ?_⟩
  · rw [evaluate_of_unknown_or_normal v low high y hb]
    refine ⟨fun below => if_pos below, fun above => ?_, fun fromLow toHigh => ?_⟩
    · rw [if_neg (by omega), if_pos above]
    · rw [if_neg (by omega), if_neg (by omega)]
  · rw [evaluate_of_low]
    refine ⟨fun above => if_pos above, fun fromBand toHigh => ?_, fun toHigh belowBand => ?_⟩
    · rw [if_neg (by omega), if_pos ⟨fromBand, toHigh⟩]
    · rw [if_neg (by omega), if_neg (by omega)]
  · rw [evaluate_of_high]
    refine ⟨fun below => if_pos below, fun toBand fromLow => ?_, fun fromLow aboveBand => ?_⟩
    · rw [if_neg (by omega), if_pos ⟨toBand, fromLow⟩]
    · rw [if_neg (by omega), if_neg (by omega)]

end Sys2Proof.Machine
end

section
/-! PROOFS. What one step can be, and what it means that an action keeps every law: the frame of the proofs of the laws
(R7, R46, R82, R90, R124, R140, R161). The outstanding requests are counted here by one tally over the arbiters. -/

namespace Sys2Proof.Machine

/-! ### One step -/

/-- A step is a command on the state with another queue and free index, or one microsecond. -/
theorem step_cases {s t : State} (h : step s = .next t) :
    (∃ c rest n, exec c { s with pending := rest, free := n } = .next t) ∨ t = s.advance := by
  unfold step at h
  split at h
  · exact .inl ⟨_, _, s.free, h⟩
  · unfold idle at h
    split at h
    · exact .inr (by cases h; rfl)
    · exact .inl ⟨_, s.pending, s.free + 1, h⟩

/-! ### A tally of the requests that arbiters hold (R46) -/

/-- The request is one for position `k` of sweep `i`. -/
def ProbeRequest.isFor (i : SweepNo) (k : Fin 16) (q : ProbeRequest) : Bool := q.sweep == i && q.position == k

theorem ProbeRequest.isFor_iff {i : SweepNo} {k : Fin 16} {q : ProbeRequest} :
    q.isFor i k = true ↔ q.sweep = i ∧ q.position = k := by simp [ProbeRequest.isFor]

section
variable (m : ProbeRequest → Bool)

/-- How many of the requests issued to an arbiter, pending, or completed and not yet taken satisfy `m`. -/
def Arbiter.tally (a : Arbiter) : Nat :=
  a.issues.countP m + a.pending.countP (fun e => m e.req) + a.done.countP (fun c => m c.req)

/-- The same of the work of a granted entry. -/
def PortWork.tally : PortWork → Nat
  | .probe e _ _ => if m e.req then 1 else 0
  | .transfer _ | .clear _ _ => 0

/-- The same of a granted entry, if there is one. -/
def grantTally : Option PortGrant → Nat
  | none => 0
  | some g => g.work.tally m

/-- The same of a port with its arbiter. -/
def Port.tally (q : Port) : Nat :=
  q.arb.tally m + q.settling.countP (fun x => m x.entry.req) + grantTally m q.granted

/-- The same of a conversion in progress. -/
def conversionTally : Option Conversion → Nat
  | none => 0
  | some g => if m g.entry.req then 1 else 0

/-- The same of the converter with its arbiter. -/
def Converter.tally (c : Converter) : Nat := c.arb.tally m + conversionTally m c.granted

/-- The same of the whole part. -/
def State.tally (s : State) : Nat :=
  (s.port 0).tally m + (s.port 1).tally m + (s.port 2).tally m + s.conv.tally m

end

theorem Port.heldFor_eq (q : Port) (i : SweepNo) (k : Fin 16) :
    q.heldFor i k = q.settling.countP (fun x => x.entry.req.isFor i k) + grantTally (·.isFor i k) q.granted := by
  unfold Port.heldFor grantTally PortWork.tally
  congr 1
  cases q.granted with
  | none => rfl
  | some g => obtain ⟨work, config⟩ := g; cases work <;> rfl

theorem Converter.heldFor_eq (c : Converter) (i : SweepNo) (k : Fin 16) :
    c.heldFor i k = conversionTally (·.isFor i k) c.granted := by
  unfold Converter.heldFor conversionTally
  cases c.granted <;> rfl

/-- The outstanding requests of a position are the tally of those for it. -/
theorem State.outstanding_eq_tally (s : State) (i : SweepNo) (k : Fin 16) :
    s.outstanding i k = s.tally (·.isFor i k) := by
  have held : ∀ a : Arbiter, a.held i k = a.tally (·.isFor i k) := fun _ => rfl
  simp only [State.outstanding, State.tally, Port.tally, Converter.tally, Port.heldFor_eq, Converter.heldFor_eq, held]
  omega

/-- A port replaced moves the tally by the difference of the two ports' tallies. -/
theorem State.tally_setPort (s : State) (p : PortNo) (q : Port) (m : ProbeRequest → Bool) :
    (s.setPort p q).tally m + (s.port p).tally m = s.tally m + q.tally m := by
  unfold State.tally
  match p with
  | 0 => rw [s.setPort_port, s.setPort_port_ne 0 q 1 (by decide), s.setPort_port_ne 0 q 2 (by decide), s.setPort_conv]; omega
  | 1 => rw [s.setPort_port, s.setPort_port_ne 1 q 0 (by decide), s.setPort_port_ne 1 q 2 (by decide), s.setPort_conv]; omega
  | 2 => rw [s.setPort_port, s.setPort_port_ne 2 q 0 (by decide), s.setPort_port_ne 2 q 1 (by decide), s.setPort_conv]; omega

theorem State.tally_setConv (s : State) (c : Converter) (m : ProbeRequest → Bool) :
    (s.setConv c).tally m + s.conv.tally m = s.tally m + c.tally m := by
  simp only [State.tally, State.setConv_port, State.setConv_conv]; omega

theorem State.tally_congr {s t : State} (ports : t.ports = s.ports) (conv : t.conv = s.conv) (m : ProbeRequest → Bool) :
    t.tally m = s.tally m := by
  simp only [State.tally, State.port, ports, conv]

/-! ### The laws, and what keeps them -/

/-- What holds of one sweep context: the law of a sweep, of the ranges of Table 2-1 only that a list has at most 16 places. -/
structure SweepForm (w : Sweep) : Prop where
  empty : w.state = .empty ↔ w.defn = none
  short : ∀ d, w.defn = some d → d.list.length ≤ 16
  running : w.state = .running ↔ w.run.isSome = true
  positions : ∀ d r, w.defn = some d → w.run = some r → r.positions.length = d.list.length
  timer : w.timer.isSome = (isPeriodic w.defn && w.state.triggerable)
  remnant : w.state = .stopping ↔ 0 < w.remnant
  held : w.held ≠ [] → w.state = .stopping
  missed : w.missed ≤ 65535

theorem SweepDef.length_of_inRange {d : SweepDef} (h : d.inRange = true) : 1 ≤ d.list.length ∧ d.list.length ≤ 16 := by
  simp only [SweepDef.inRange, Bool.and_eq_true, decide_eq_true_eq] at h
  exact h.1.1

theorem SweepLaw.form {w : Sweep} (h : SweepLaw w) : SweepForm w :=
  ⟨h.empty, fun d hd => (SweepDef.length_of_inRange (h.range d hd)).2, h.running, h.positions, h.timer, h.remnant, h.held,
    h.missed⟩

/-- What a running pass has outstanding for a position: one request while it is not COMPLETE. -/
def Sweep.owed (w : Sweep) (k : Fin 16) : Nat :=
  match w.positions[k.val]? with
  | some .pending | some .deferred => 1
  | some .complete | none => 0

/-- The numbers of outstanding requests by position fit the state of the sweep (R21, R40, R46). -/
def Sweep.Fits (w : Sweep) (f : Fin 16 → Nat) : Prop :=
  match w.state with
  | .empty | .idle | .armed => ∀ k, f k = 0
  | .running => ∀ k, f k = w.owed k
  | .stopping => (∀ k, f k ≤ 1) ∧ w.remnant = ((List.finRange 16).map f).sum

theorem Sweep.fits_of_quiet {w : Sweep} (h : w.state = .empty ∨ w.state = .idle ∨ w.state = .armed) (f : Fin 16 → Nat) :
    w.Fits f ↔ ∀ k, f k = 0 := by
  rcases h with h | h | h <;> simp [Sweep.Fits, h]

theorem Sweep.fits_of_running {w : Sweep} (h : w.state = .running) (f : Fin 16 → Nat) :
    w.Fits f ↔ ∀ k, f k = w.owed k := by simp [Sweep.Fits, h]

theorem Sweep.fits_of_stopping {w : Sweep} (h : w.state = .stopping) (f : Fin 16 → Nat) :
    w.Fits f ↔ (∀ k, f k ≤ 1) ∧ w.remnant = ((List.finRange 16).map f).sum := by simp [Sweep.Fits, h]

/-- Fitting reads nothing of a sweep but its state, its position states and its remnant count. -/
theorem Sweep.Fits.congr {w v : Sweep} {f : Fin 16 → Nat} (h : w.Fits f) (hs : v.state = w.state) (hr : v.run = w.run)
    (hn : v.remnant = w.remnant) : v.Fits f := by
  simpa only [Sweep.Fits, hs, hn, Sweep.owed, Sweep.positions, hr] using h

/-- 1 for the position of the request that the Sweep Engine has in hand, taken from its arbiter and not yet handled. -/
def inHand (x : Option ProbeRequest) (i : SweepNo) (k : Fin 16) : Nat := if x.any (·.isFor i k) then 1 else 0

@[simp] theorem inHand_none (i : SweepNo) (k : Fin 16) : inHand none i k = 0 := rfl

theorem inHand_some (q : ProbeRequest) (i : SweepNo) (k : Fin 16) :
    inHand (some q) i k = if q.isFor i k then 1 else 0 := rfl

/-- The law of the outstanding requests while the Sweep Engine has the request `x` in hand. -/
def OutstandingWith (x : Option ProbeRequest) (s : State) : Prop :=
  ∀ i, (s.sweep i).Fits (fun k => s.tally (·.isFor i k) + inHand x i k)

/-- With nothing in hand it is the law. -/
theorem outstandingWith_none (s : State) : OutstandingWith none s ↔ OutstandingLaw s := by
  have h : ∀ i, (fun k => s.tally (·.isFor i k) + inHand none i k) = s.outstanding i := by
    intro i; funext k; simp [State.outstanding_eq_tally]
  simp only [OutstandingWith, h]
  exact Iff.rfl

/-- What an action that leads from `s` to `t` keeps; before it the Sweep Engine has `x` in hand, after it `y`. -/
structure Keeps (x y : Option ProbeRequest) (s t : State) : Prop where
  link : LinkLaw s.link → LinkLaw t.link
  refs : ReferenceLaw s → ReferenceLaw t
  sweeps : (∀ i, SweepForm (s.sweep i)) → ∀ i, SweepForm (t.sweep i)
  outstanding : ReferenceLaw s → (∀ i, SweepForm (s.sweep i)) → (∀ p, PortLaw (s.port p)) →
    OutstandingWith x s → OutstandingWith y t
  waiters : WaiterLaw s → WaiterLaw t
  ports : (∀ p, PortLaw (s.port p)) → ∀ p, PortLaw (t.port p)
  conv : ConverterLaw s.conv → ConverterLaw t.conv
  watch : WatchLaw s → WatchLaw t

theorem Keeps.refl (x : Option ProbeRequest) (s : State) : Keeps x x s s :=
  ⟨id, id, id, fun _ _ _ h => h, id, id, id, id⟩

theorem Keeps.trans {x y z : Option ProbeRequest} {s t u : State} (h : Keeps x y s t) (k : Keeps y z t u) :
    Keeps x z s u where
  link := k.link ∘ h.link
  refs := k.refs ∘ h.refs
  sweeps := k.sweeps ∘ h.sweeps
  outstanding hr hs hp ho := k.outstanding (h.refs hr) (h.sweeps hs) (h.ports hp) (h.outstanding hr hs hp ho)
  waiters := k.waiters ∘ h.waiters
  ports := k.ports ∘ h.ports
  conv := k.conv ∘ h.conv
  watch := k.watch ∘ h.watch

/-- An action done for the members of a list keeps what each of its turns keeps. -/
theorem Keeps.foldl {α : Type} {x : Option ProbeRequest} {f : State → α → State} (h : ∀ s a, Keeps x x s (f s a))
    (l : List α) (s : State) : Keeps x x s (l.foldl f s) := by
  induction l generalizing s with
  | nil => exact .refl x s
  | cons a l ih => exact (h s a).trans (ih (f s a))

/-! ### Laws that read part of the state -/

/-- The law of the reference counts reads the slots and the sweeps' lists, states and definitions. -/
theorem ReferenceLaw.congr {s t : State} (h : ReferenceLaw s) (slots : t.slots = s.slots)
    (defn : ∀ i, (t.sweep i).defn = (s.sweep i).defn)
    (empty : ∀ i, (t.sweep i).state = .empty ↔ (s.sweep i).state = .empty) : ReferenceLaw t := by
  have slot : ∀ k, t.slot k = s.slot k := fun k => by simp only [State.slot, slots]
  have list : ∀ i, (t.sweep i).list = (s.sweep i).list := fun i => by simp only [Sweep.list, defn]
  exact {
    counted := fun k => by simp only [slot, State.nameCount, list]; exact h.counted k
    defined := fun i k => by rw [slot, list]; exact h.defined i k
    distinct := fun i => by rw [list]; exact h.distinct i
    empty := fun i => by rw [empty, defn]; exact h.empty i }

/-- The law of the waiters holds of fewer waiters on sweeps that stay ARMED or RUNNING. -/
theorem WaiterLaw.sublist {s t : State} (h : WaiterLaw s) (fewer : t.waiters.Sublist s.waiters)
    (on : ∀ w, w ∈ t.waiters → (s.sweep w.sweep).state.triggerable = true →
      (t.sweep w.sweep).state.triggerable = true) : WaiterLaw t where
  room := fewer.length_le.trans h.room
  waiting w hw := on w hw (h.waiting w (fewer.subset hw))

theorem WatchLaw.congr {s t : State} (h : WatchLaw s) (watches : t.watches = s.watches) (dropped : t.dropped = s.dropped) :
    WatchLaw t where
  failing k := by simp only [State.watch, watches]; exact h.failing k
  dropped := dropped ▸ h.dropped

/-- The law of the converter reads nothing of its arbiter. -/
theorem ConverterLaw.congr {c e : Converter} (h : ConverterLaw c) (granted : e.granted = c.granted)
    (power : e.power = c.power) (delay : e.idleDelay = c.idleDelay) (timer : e.idleTimer = c.idleTimer) :
    ConverterLaw e where
  granted := by rw [granted, power]; exact h.granted
  timer := by rw [timer, power]; exact h.timer
  delay := delay ▸ h.delay
  sum := by rw [granted]; exact h.sum

/-! ### Actions that change few parts -/

/-- An action on the link, the Watch Unit and the waiter list, which only grows shorter. -/
theorem Keeps.of_frame {x : Option ProbeRequest} {s t : State} (link : LinkLaw s.link → LinkLaw t.link)
    (watch : WatchLaw s → WatchLaw t) (slots : t.slots = s.slots) (sweeps : t.sweeps = s.sweeps)
    (waiters : t.waiters.Sublist s.waiters) (ports : t.ports = s.ports) (conv : t.conv = s.conv) : Keeps x x s t := by
  have sweep : ∀ i, t.sweep i = s.sweep i := fun i => by simp only [State.sweep, sweeps]
  have port : ∀ p, t.port p = s.port p := fun p => by simp only [State.port, ports]
  exact {
    link := link
    refs := fun h => h.congr slots (fun i => by rw [sweep]) (fun i => by rw [sweep])
    sweeps := fun h i => by rw [sweep]; exact h i
    outstanding := fun _ _ _ h i => by simp only [sweep, State.tally_congr ports conv]; exact h i
    waiters := fun h => h.sublist waiters (fun w _ => by rw [sweep]; exact id)
    ports := fun h p => by rw [port]; exact h p
    conv := fun h => conv ▸ h
    watch := watch }

/-- An action on one port that loses and gains no request. -/
theorem Keeps.setPort {x : Option ProbeRequest} (s : State) (p : PortNo) (q : Port)
    (law : PortLaw (s.port p) → PortLaw q) (tally : PortLaw (s.port p) → ∀ m, q.tally m = (s.port p).tally m) :
    Keeps x x s (s.setPort p q) where
  link := id
  refs h := h.congr rfl (fun _ => rfl) (fun _ => Iff.rfl)
  sweeps := id
  outstanding _ _ hp h i := by
    have same : ∀ m, (s.setPort p q).tally m = s.tally m := fun m => by
      have := s.tally_setPort p q m; have := tally (hp p) m; omega
    simp only [same, State.setPort_sweep]; exact h i
  waiters h := h.sublist (List.Sublist.refl _) (fun _ _ => id)
  ports h j := by
    by_cases e : j = p
    · subst e; rw [s.setPort_port]; exact law (h j)
    · rw [s.setPort_port_ne p q j e]; exact h j
  conv := id
  watch h := h.congr rfl rfl

/-- An action on the converter that loses and gains no request. -/
theorem Keeps.setConv {x : Option ProbeRequest} (s : State) (c : Converter) (law : ConverterLaw s.conv → ConverterLaw c)
    (tally : ∀ m, c.tally m = s.conv.tally m) : Keeps x x s (s.setConv c) where
  link := id
  refs h := h.congr rfl (fun _ => rfl) (fun _ => Iff.rfl)
  sweeps := id
  outstanding _ _ _ h i := by
    have same : ∀ m, (s.setConv c).tally m = s.tally m := fun m => by
      have := s.tally_setConv c m; have := tally m; omega
    simp only [same, State.setConv_sweep]; exact h i
  waiters h := h.sublist (List.Sublist.refl _) (fun _ _ => id)
  ports := id
  conv := law
  watch h := h.congr rfl rfl

/-- An action on one sweep `i`, the requests for it, the link, the Watch Unit and the waiters. -/
theorem Keeps.of_sweep {x y : Option ProbeRequest} {s t : State} (i : SweepNo) (link : LinkLaw s.link → LinkLaw t.link)
    (watch : WatchLaw s → WatchLaw t) (slots : t.slots = s.slots) (others : ∀ j, j ≠ i → t.sweep j = s.sweep j)
    (defn : (t.sweep i).defn = (s.sweep i).defn) (empty : (t.sweep i).state = .empty ↔ (s.sweep i).state = .empty)
    (form : SweepForm (s.sweep i) → SweepForm (t.sweep i)) (waiters : WaiterLaw s → WaiterLaw t)
    (ports : (∀ p, PortLaw (s.port p)) → ∀ p, PortLaw (t.port p)) (conv : ConverterLaw s.conv → ConverterLaw t.conv)
    (elsewhere : ∀ j, j ≠ i → ∀ k, t.tally (·.isFor j k) + inHand y j k = s.tally (·.isFor j k) + inHand x j k)
    (fits : ReferenceLaw s → SweepForm (s.sweep i) →
      (s.sweep i).Fits (fun k => s.tally (·.isFor i k) + inHand x i k) →
      (t.sweep i).Fits (fun k => t.tally (·.isFor i k) + inHand y i k)) : Keeps x y s t where
  link := link
  refs h := h.congr slots
    (fun j => by by_cases e : j = i; exacts [e ▸ defn, by rw [others j e]])
    (fun j => by by_cases e : j = i; exacts [e ▸ empty, by rw [others j e]])
  sweeps h j := by
    by_cases e : j = i
    · subst e; exact form (h j)
    · rw [others j e]; exact h j
  outstanding hr hs _ h j := by
    by_cases e : j = i
    · subst e; exact fits hr (hs j) (h j)
    · simp only [others j e, elsewhere j e]; exact h j
  waiters := waiters
  ports := ports
  conv := conv
  watch := watch

end Sys2Proof.Machine
end

section
/-! PROOFS. The operations that every block uses keep every law: replies, events, answers to waiters, hand-off lists, and
what the Watch Unit does (R82, R134 to R147, R165). -/

namespace Sys2Proof.Machine

section
variable (x : Option ProbeRequest) (s : State)

/-! ### Hand-off lists, inbox, pages -/

theorem Keeps.setHand (h : HandOff) : Keeps x x s (s.setHand h) :=
  .of_frame id (·.congr rfl rfl) rfl rfl (.refl _) rfl rfl

theorem Keeps.setInbox (l : List WatchItem) : Keeps x x s (s.setInbox l) :=
  .of_frame id (·.congr rfl rfl) rfl rfl (.refl _) rfl rfl

theorem Keeps.setPages (i : SweepNo) (g : Pages) : Keeps x x s (s.setPages i g) :=
  .of_frame id (·.congr rfl rfl) rfl rfl (.refl _) rfl rfl

/-- The command queue and the free index have no part in any law. -/
theorem Keeps.queue_free (l : List Instr) (n : Nat) : Keeps x x s { s with pending := l, free := n } :=
  .of_frame id (·.congr rfl rfl) rfl rfl (.refl _) rfl rfl

/-! ### The link -/

/-- Whatever keeps the law of the link and changes nothing else keeps every law. -/
theorem Keeps.setLink (l : Link) (law : LinkLaw s.link → LinkLaw l) : Keeps x x s (s.setLink l) :=
  .of_frame law (·.congr rfl rfl) rfl rfl (.refl _) rfl rfl

theorem Keeps.reply (ref : ReqRef) (st : Status) (items : List Byte) : Keeps x x s (s.reply ref st items) :=
  .setLink x s _ (·.reply ref _)

/-- A saturating count stays within its limit. -/
theorem satAdd_le (limit a b : Nat) : satAdd limit a b ≤ limit := Nat.min_le_left _ _

theorem WatchLaw.offerEvent {s : State} (h : WatchLaw s) (kind : OutKind) (items : List Byte) :
    WatchLaw (s.offerEvent kind items) where
  failing k := by rw [State.offerEvent_watch]; exact h.failing k
  dropped := by
    rcases s.offerEvent_cases kind items with ⟨_, e⟩ | ⟨_, e⟩ <;> rw [e]
    · exact Nat.zero_le _
    · exact satAdd_le _ _ _

theorem Keeps.offerEvent (kind : OutKind) (items : List Byte) (event : kind.isEventKind = true) :
    Keeps x x s (s.offerEvent kind items) :=
  .of_frame (·.offerEvent kind items event) (·.offerEvent kind items) (by simp) (by simp) (by simp) (by simp) (by simp)

theorem Keeps.answerWaiters (sel : Waiter → Bool) (st : Status) (items : Waiter → List Byte) :
    Keeps x x s (s.answerWaiters sel st items) :=
  .of_frame (·.answerWaiters sel st items) (·.congr rfl rfl) rfl rfl List.filter_sublist rfl rfl

/-! ### The Watch Unit -/

/-- A watch slot that is UNKNOWN while it is FAILING may take the place of another (R140). -/
theorem WatchLaw.setWatch {s : State} (h : WatchLaw s) (k : Fin 64) (w : WatchSlot)
    (hw : w.health = .failing → w.watch = .unknown) : WatchLaw (s.setWatch k w) where
  failing j := by
    by_cases e : j = k
    · subst e; rw [s.setWatch_watch]; exact hw
    · rw [s.setWatch_watch_ne k w j e]; exact h.failing j
  dropped := h.dropped

theorem Keeps.setWatch (k : Fin 64) (w : WatchSlot) (law : WatchLaw s → w.health = .failing → w.watch = .unknown) :
    Keeps x x s (s.setWatch k w) :=
  .of_frame id (fun h => h.setWatch k w (law h)) rfl rfl (.refl _) rfl rfl

/-- The evaluation of a value at a GOOD slot. -/
theorem Keeps.evaluateCopy (c : Completion) (w : WatchPart) (good : (s.watch c.req.slot).health = .good) :
    Keeps x x s (s.evaluateCopy c w) := by
  have set : ∀ new, Keeps x x s (s.setWatch c.req.slot { s.watch c.req.slot with watch := new }) := fun new =>
    .setWatch x s _ _ fun _ failing => by simp [good] at failing
  simp only [State.evaluateCopy]
  split
  · exact set _
  · exact (set _).trans (.offerEvent x _ _ _ rfl)

theorem Keeps.doneCopy (c : Completion) : Keeps x x s (s.doneCopy c) := by
  have set : Keeps x x s (s.setWatch c.req.slot { s.watch c.req.slot with health := .good, faults := 0 }) :=
    .setWatch x s _ _ fun _ failing => by simp at failing
  have evaluated : ∀ u : State, Keeps x x s u → (u.watch c.req.slot).health = .good → Keeps x x s
      (match c.req.copy.watch with
        | none => u
        | some part => u.evaluateCopy c part) := by
    intro u hu good
    cases c.req.copy.watch with
    | none => exact hu
    | some part => exact hu.trans (.evaluateCopy x u c part good)
  refine evaluated _ ?_ ?_
  · split
    · exact set.trans (.offerEvent x _ _ _ rfl)
    · exact set
  · split <;> simp

theorem Keeps.faultCopy (c : Completion) : Keeps x x s (s.faultCopy c) := by
  have answer : ∀ n : Nat, Keeps x x s
      (if (s.watch c.req.slot).health = .good ∧ n = c.req.copy.faultLimit then
        (s.setWatch c.req.slot { watch := .unknown, health := .failing, faults := n }).offerEvent .health (healthItems c 1 n)
      else s.setWatch c.req.slot { s.watch c.req.slot with faults := n }) := by
    intro n
    split
    · exact (Keeps.setWatch x s _ _ fun _ _ => rfl).trans (.offerEvent x _ _ _ rfl)
    · exact .setWatch x s _ _ fun law => law.failing _
  exact answer _

theorem Keeps.takeCopy (c : Completion) : Keeps x x s (s.takeCopy c) := by
  unfold State.takeCopy
  split
  · exact .doneCopy x s c
  · exact .faultCopy x s c

theorem Keeps.resetWatch (k : Fin 64) : Keeps x x s (s.resetWatch k) :=
  .setWatch x s k _ fun _ failing => by simp [WatchSlot.reset] at failing

theorem Keeps.watchGet (r : Request) : Keeps x x s (s.watchGet r) := by
  unfold State.watchGet
  split <;> exact .reply x s _ _ _

theorem Keeps.watchReset (r : Request) : Keeps x x s (s.watchReset r) := by
  unfold State.watchReset
  split
  · exact .reply x s _ _ _
  · exact (Keeps.resetWatch x s _).trans (.reply x _ _ _ _)

theorem Keeps.takeItem (item : WatchItem) : Keeps x x s (s.takeItem item) := by
  cases item with
  | copy c => exact .takeCopy x s c
  | request r =>
    simp only [State.takeItem]
    split
    · exact .watchGet x s r
    · exact .watchReset x s r
    · exact .refl x s

theorem Keeps.takeInbox : Keeps x x s s.takeInbox :=
  (Keeps.setInbox x s []).trans (.foldl (fun u item => .takeItem x u item) _ _)

theorem Keeps.sendCopy (c : Completion) (atOnce : Bool) : Keeps x x s (s.sendCopy c atOnce) := by
  cases atOnce
  · exact .setInbox x s _
  · exact (Keeps.setInbox x s _).trans (.takeInbox x _)

end

end Sys2Proof.Machine
end

section
/-! PROOFS. The two-wire ports and the converter keep every law: what a port arbiter does, the end of a grant as one new
port and one new link, the bus commands, and the PORT and ANALOG requests (Chapters 5 to 7). -/

namespace Sys2Proof.Machine

/-- The command is answered by a next state, and keeps every law on the way. -/
def AnswersKeeping (s : State) (o : Host.Outcome State Fault Refusal) : Prop := ∃ t, o = .next t ∧ Keeps none none s t

theorem AnswersKeeping.next {s t : State} (h : Keeps none none s t) : AnswersKeeping s (.next t) := ⟨t, rfl, h⟩

theorem AnswersKeeping.same (s : State) : AnswersKeeping s (.next s) := .next (.refl none s)

/-! ### One port replaced -/

theorem State.setPort_setPort (s : State) (p : PortNo) (q r : Port) : (s.setPort p q).setPort p r = s.setPort p r := by
  simp [State.setPort]

theorem State.setPort_self (s : State) (p : PortNo) : s.setPort p (s.port p) = s := by
  simp [State.setPort, State.port]

/-- A port and the link replaced: what is done to the port later takes its place. -/
theorem State.setPort_setLink_setPort (s : State) (p : PortNo) (q r : Port) (l : Link) :
    ((s.setPort p q).setLink l).setPort p r = (s.setPort p r).setLink l := by
  simp [State.setPort, State.setLink]

theorem State.setLink_setLink (s : State) (l m : Link) : (s.setLink l).setLink m = s.setLink m := rfl

/-! ### The law of a port -/

/-- The law of a port reads its arbiter's pending collection only, and that of a port that is BLOCKED or CLEARING. -/
theorem PortLaw.congr {q r : Port} (h : PortLaw q) (state : r.state = q.state) (granted : r.granted = q.granted)
    (transfers : r.transfers = q.transfers) (held : r.held = q.held) (stretch : r.stretch = q.stretch)
    (pending : q.places = false → r.arb.pending = q.arb.pending) : PortLaw r where
  fits := by simp only [Port.stateFits, state, granted]; exact h.fits
  blocked := by
    have places : r.places = q.places := by simp only [Port.places, state]
    rw [places, transfers]
    intro hp
    rw [pending hp]
    exact h.blocked hp
  room := transfers ▸ h.room
  held := by rw [held, granted]; exact h.held
  stretch := by rw [stretch, granted]; exact h.stretch

theorem Port.places_iff (q : Port) : q.places = true ↔ q.state = .idle ∨ q.state = .active := by
  unfold Port.places
  cases q.state <;> simp

theorem Port.not_places_iff (q : Port) : q.places = false ↔ q.state = .blocked ∨ q.state = .clearing := by
  unfold Port.places
  cases q.state <;> simp

/-- A port without a granted entry is IDLE or BLOCKED, and nothing is held there. -/
theorem PortLaw.of_not_granted {q : Port} (h : PortLaw q) (hg : q.granted = none) :
    (q.state = .idle ∨ q.state = .blocked) ∧ q.held = none ∧ q.stretch = none := by
  refine ⟨?_, ?_, ?_⟩
  · have := h.fits
    simp only [Port.stateFits, hg] at this
    cases hs : q.state <;> simp_all
  · have := h.held
    simpa [hg] using this
  · have := h.stretch
    simpa [hg] using this

/-- A BLOCKED port has no granted entry. -/
theorem PortLaw.not_granted_of_blocked {q : Port} (h : PortLaw q) (hb : q.state = .blocked) : q.granted = none := by
  have := h.fits
  simp only [Port.stateFits, hb] at this
  cases hg : q.granted with
  | none => rfl
  | some g => simp [hg] at this

/-- A port is ACTIVE for a probe or a transfer. -/
theorem PortLaw.state_of_granted {q : Port} (h : PortLaw q) {g : PortGrant} (hg : q.granted = some g) :
    q.state = match g.work with
      | .probe _ _ _ | .transfer _ => .active
      | .clear _ _ => .clearing := by
  have := h.fits
  simp only [Port.stateFits, hg] at this
  cases hs : q.state <;> cases hw : g.work <;> simp_all

/-- A port that is neither granted nor pending at, in IDLE or BLOCKED, keeps the law. -/
theorem PortLaw.of_released {q : Port} (hs : q.state = .idle ∨ q.state = .blocked) (hg : q.granted = none)
    (hp : q.state = .blocked → q.arb.pending = [] ∧ q.transfers = []) (hr : q.transfers.length ≤ 8) (hh : q.held = none)
    (ht : q.stretch = none) : PortLaw q where
  fits := by rcases hs with hs | hs <;> simp [Port.stateFits, hs, hg]
  blocked := by
    intro places
    rcases q.not_places_iff.1 places with hb | hb
    · exact hp hb
    · rcases hs with hs | hs <;> simp [hs] at hb
  room := hr
  held := by simp [hh]
  stretch := by simp [ht]

/-! ### Arrivals at an arbiter (R89) -/

theorem Port.arrive_law {q : Port} (h : PortLaw q) (now : Time) (r : ProbeRequest) : PortLaw (q.arrive now r) := by
  unfold Port.arrive
  split
  · rename_i hp
    exact h.congr rfl rfl rfl rfl rfl (by simp [hp])
  · exact h.congr rfl rfl rfl rfl rfl (fun _ => rfl)

theorem Port.arrive_tally (q : Port) (now : Time) (r : ProbeRequest) (m : ProbeRequest → Bool) :
    (q.arrive now r).tally m = q.tally m + if m r then 1 else 0 := by
  unfold Port.arrive
  split <;>
  · simp only [Port.tally, Arbiter.tally, Arbiter.place, Arbiter.hand, blockedCompletion, List.countP_append,
      List.countP_singleton]
    omega

theorem Port.foldl_arrive_law {q : Port} (h : PortLaw q) (now : Time) (l : List ProbeRequest) :
    PortLaw (l.foldl (fun q r => q.arrive now r) q) := by
  induction l generalizing q with
  | nil => exact h
  | cons r l ih => exact ih (q.arrive_law h now r)

theorem Port.foldl_arrive_tally (q : Port) (now : Time) (l : List ProbeRequest) (m : ProbeRequest → Bool) :
    (l.foldl (fun q r => q.arrive now r) q).tally m = q.tally m + l.countP m := by
  induction l generalizing q with
  | nil => rfl
  | cons r l ih => rw [List.foldl_cons, ih, q.arrive_tally, List.countP_cons]; omega

theorem Port.takeIssues_law {q : Port} (h : PortLaw q) (now : Time) : PortLaw (q.takeIssues now) :=
  Port.foldl_arrive_law (q := { q with arb := { q.arb with issues := [] } })
    (h.congr rfl rfl rfl rfl rfl (fun _ => rfl)) now _

theorem Port.takeIssues_tally (q : Port) (now : Time) (m : ProbeRequest → Bool) :
    (q.takeIssues now).tally m = q.tally m := by
  unfold Port.takeIssues
  rw [Port.foldl_arrive_tally]
  simp only [Port.tally, Arbiter.tally, List.countP_nil]
  omega

theorem Port.takeIssue_law {q : Port} (h : PortLaw q) (now : Time) : PortLaw (q.takeIssue now) := by
  unfold Port.takeIssue
  split
  · exact h
  · rename_i r rest _
    exact Port.arrive_law (q := { q with arb := { q.arb with issues := rest } })
      (h.congr rfl rfl rfl rfl rfl (fun _ => rfl)) now r

theorem Port.takeIssue_tally (q : Port) (now : Time) (m : ProbeRequest → Bool) :
    (q.takeIssue now).tally m = q.tally m := by
  unfold Port.takeIssue
  split
  · rfl
  · rename_i r rest hi
    rw [Port.arrive_tally]
    simp only [Port.tally, Arbiter.tally, hi, List.countP_cons]
    omega

theorem Arbiter.place_tally (a : Arbiter) (r : ProbeRequest) (m : ProbeRequest → Bool) :
    (a.place r).tally m = a.tally m + if m r then 1 else 0 := by
  simp only [Arbiter.tally, Arbiter.place, List.countP_append, List.countP_singleton]
  omega

theorem Arbiter.foldl_place_tally (a : Arbiter) (l : List ProbeRequest) (m : ProbeRequest → Bool) :
    (l.foldl Arbiter.place a).tally m = a.tally m + l.countP m := by
  induction l generalizing a with
  | nil => rfl
  | cons r l ih => rw [List.foldl_cons, ih, a.place_tally, List.countP_cons]; omega

theorem Converter.takeIssues_tally (c : Converter) (m : ProbeRequest → Bool) : c.takeIssues.tally m = c.tally m := by
  simp only [Converter.tally, Converter.takeIssues, Arbiter.foldl_place_tally]
  simp only [Arbiter.tally, List.countP_nil]
  omega

theorem Converter.takeIssue_law {c : Converter} (h : ConverterLaw c) : ConverterLaw c.takeIssue := by
  unfold Converter.takeIssue
  split
  · exact h
  · exact h.congr rfl rfl rfl rfl

theorem Converter.takeIssue_tally (c : Converter) (m : ProbeRequest → Bool) : c.takeIssue.tally m = c.tally m := by
  unfold Converter.takeIssue
  split
  · rfl
  · rename_i r rest hi
    simp only [Converter.tally, Arbiter.place_tally]
    simp only [Arbiter.tally, hi, List.countP_cons]
    omega

theorem exec_arbiterTakesIssue_keeps (r : Resource) (s : State) : AnswersKeeping s (exec (.arbiterTakesIssue r) s) := by
  cases r with
  | tw p => exact .next (.setPort s p _ (Port.takeIssue_law · s.time) fun _ => (s.port p).takeIssue_tally s.time)
  | analog => exact .next (.setConv s _ Converter.takeIssue_law s.conv.takeIssue_tally)

/-! ### Grants (R91) -/

/-- What comes first is a member. -/
theorem firstBy_mem {α : Type} {before : α → α → Bool} {l : List α} {a : α} (h : firstBy before l = some a) : a ∈ l := by
  induction l generalizing a with
  | nil => simp [firstBy] at h
  | cons x xs ih =>
    unfold firstBy at h
    split at h
    · simp_all
    · rename_i y hy
      split at h <;> simp only [Option.some.injEq] at h <;> subst h
      · exact List.mem_cons_of_mem _ (ih hy)
      · exact List.mem_cons_self

/-- A member taken out of a collection is one fewer of those that satisfy what it does. -/
theorem countP_erase_add {α : Type} [DecidableEq α] (p : α → Bool) {l : List α} {a : α} (h : a ∈ l) :
    (l.erase a).countP p + (if p a then 1 else 0) = l.countP p := by
  rw [(List.perm_cons_erase h).countP_eq p, List.countP_cons]

/-- What a due grant at a port does: the first direct transfer, or with none the first probe request, is granted. -/
theorem Port.grant_cases (q : Port) :
    q.grant = q
    ∨ (q.granted = none ∧ q.state ≠ .blocked
        ∧ ((∃ t, t ∈ q.transfers ∧ q.grant = { q with
              transfers := q.transfers.erase t, state := .active
              granted := some { work := .transfer t, config := q.config } })
          ∨ (∃ e, e ∈ q.arb.pending ∧ q.grant = { q with
              arb := { q.arb with pending := q.arb.pending.erase e }, state := .active
              granted := some { work := .probe e e.firstPhase 1, config := q.config } }))) := by
  unfold Port.grant
  split
  · exact .inl rfl
  · rename_i hn
    simp only [not_or, Option.not_isSome_iff_eq_none] at hn
    split
    · rename_i t ht
      exact .inr ⟨hn.1, hn.2, .inl ⟨t, firstBy_mem ht, rfl⟩⟩
    · split
      · exact .inl rfl
      · rename_i e he
        exact .inr ⟨hn.1, hn.2, .inr ⟨e, firstBy_mem he, rfl⟩⟩

theorem Port.grant_law {q : Port} (h : PortLaw q) : PortLaw q.grant := by
  rcases q.grant_cases with e | ⟨hg, hb, hc⟩
  · rw [e]; exact h
  · obtain ⟨_, held, stretch⟩ := h.of_not_granted hg
    rcases hc with ⟨t, ht, e⟩ | ⟨t, ht, e⟩ <;> rw [e]
    · exact {
        fits := trivial, blocked := fun hp => by simp [Port.places] at hp
        room := List.length_erase_le.trans h.room, held := fun _ => rfl, stretch := fun _ => rfl }
    · exact {
        fits := trivial, blocked := fun hp => by simp [Port.places] at hp
        room := h.room, held := fun _ => rfl, stretch := fun _ => rfl }

theorem Port.grant_tally (q : Port) (m : ProbeRequest → Bool) : q.grant.tally m = q.tally m := by
  rcases q.grant_cases with e | ⟨hg, _, ⟨t, _, e⟩ | ⟨t, ht, e⟩⟩ <;> rw [e]
  · simp [Port.tally, grantTally, PortWork.tally, hg]
  · have := countP_erase_add (fun e => m e.req) ht
    simp only [Port.tally, Arbiter.tally, grantTally, PortWork.tally, hg]
    omega

/-- What a due grant at the converter does. -/
theorem Converter.grant_cases (c : Converter) (now : Time) :
    c.grant now = c
    ∨ (c.granted = none ∧ ∃ e, e ∈ c.arb.pending ∧ c.grant now = { c with
        arb := { c.arb with pending := c.arb.pending.erase e }
        granted := some { entry := e, since := now, taken := 0, sum := 0 }
        power := if c.power = .off then .waking else .converting
        idleTimer := none }) := by
  unfold Converter.grant
  split
  · exact .inl rfl
  · rename_i hn
    split
    · exact .inl rfl
    · rename_i e he
      exact .inr ⟨by simpa using hn, e, firstBy_mem he, rfl⟩

theorem Converter.grant_law {c : Converter} (h : ConverterLaw c) (now : Time) : ConverterLaw (c.grant now) := by
  rcases c.grant_cases now with e | ⟨_, t, _, e⟩ <;> rw [e]
  · exact h
  · exact {
      granted := by simp only [Option.isSome_some, true_iff]; split <;> simp
      timer := by simp
      delay := h.delay
      sum := by simp }

theorem Converter.grant_tally (c : Converter) (now : Time) (m : ProbeRequest → Bool) :
    (c.grant now).tally m = c.tally m := by
  rcases c.grant_cases now with e | ⟨hg, t, ht, e⟩ <;> rw [e]
  have := countP_erase_add (fun e => m e.req) ht
  simp only [Converter.tally, Arbiter.tally, conversionTally, hg]
  omega

theorem exec_grant_keeps (r : Resource) (s : State) : AnswersKeeping s (exec (.grant r) s) := by
  cases r with
  | tw p => exact .next (.setPort s p _ Port.grant_law fun _ => (s.port p).grant_tally)
  | analog => exact .next (.setConv s _ (Converter.grant_law · s.time) (s.conv.grant_tally s.time))

/-! ### Direct transfers at the arbiter (R90) -/

theorem Keeps.transferArrives (x : Option ProbeRequest) (s : State) (p : PortNo) (t : Transfer) :
    Keeps x x s (s.transferArrives p t) := by
  rcases s.transferArrives_cases p t with ⟨places, room, e⟩ | ⟨_, _, e⟩ | ⟨_, e⟩ <;> rw [e]
  · refine .setPort s p _ (fun h => ?_) (fun _ _ => rfl)
    exact {
      fits := h.fits
      blocked := fun hp => by simp_all [Port.places]
      room := by simp only [List.length_append, List.length_singleton]; omega
      held := h.held
      stretch := h.stretch }
  · exact .reply x s _ _ _
  · exact .reply x s _ _ _

/-- The transfers that wait at the arbiter's door have no part in any law. -/
theorem Keeps.setArrivals (x : Option ProbeRequest) (s : State) (p : PortNo) (l : List Transfer) :
    Keeps x x s (s.setPort p { s.port p with arrivals := l }) :=
  .setPort s p _ (·.congr rfl rfl rfl rfl rfl (fun _ => rfl)) (fun _ _ => rfl)

theorem Keeps.takeArrivals (x : Option ProbeRequest) (s : State) (p : PortNo) : Keeps x x s (s.takeArrivals p) :=
  (Keeps.setArrivals x s p []).trans (.foldl (fun u t => .transferArrives x u p t) _ _)

theorem exec_hostEntryArrival_keeps (p : PortNo) (s : State) : AnswersKeeping s (exec (.hostEntryArrival p) s) := by
  simp only [exec, execHostEntryArrival]
  split
  · exact .same s
  · exact .next ((Keeps.setArrivals none s p _).trans (.transferArrives none _ p _))

/-! ### The end of a grant (R92): one new port and one new link -/

/-- The port with completions handed on and requests that enter the settling set: what an outcome does to it. -/
def Port.receives (q : Port) (cs : List Completion) (ms : List Settling) : Port :=
  { q with arb := { q.arb with done := q.arb.done ++ cs }, settling := q.settling ++ ms }

/-- The port with its pending collection emptied: its probe requests complete PORT_BLOCKED in grant order (R95). -/
def Port.emptied (q : Port) (now : Time) : Port :=
  { q with
    transfers := []
    arb := { q.arb with
      pending := []
      done := q.arb.done
        ++ (grantOrder ProbeEntry.before q.arb.pending).map (fun e => blockedCompletion e.req now) } }

/-- The port with its held configuration applied (R99). -/
def Port.applied (q : Port) : Port :=
  match q.held with
  | none => q
  | some h => { q with config := h.config, held := none }

/-- The link after the PORT_BLOCKED replies to direct transfers (R95, R118). -/
def Link.refuse (l : Link) (p : PortNo) (now : Time) (xs : List TransferEntry) : Link :=
  xs.foldl (fun m e => m.reply e.xfer.ref (Status.portBlocked.code :: ([byteOf p.val, 0] ++ be32 now))) l

theorem LinkLaw.refuse {l : Link} (h : LinkLaw l) (p : PortNo) (now : Time) (xs : List TransferEntry) :
    LinkLaw (l.refuse p now xs) := by
  unfold Link.refuse
  induction xs generalizing l with
  | nil => exact h
  | cons e xs ih => exact ih (h.reply _ _)

/-- Replies to direct transfers are replies of the link. -/
theorem State.foldl_transferReply (s : State) (p : PortNo) (xs : List TransferEntry) :
    xs.foldl (fun u t => u.transferReply p t.xfer .portBlocked [] u.time) s
      = s.setLink (s.link.refuse p s.time xs) := by
  induction xs generalizing s with
  | nil => rfl
  | cons e xs ih => rw [List.foldl_cons, ih]; rfl

/-- The emptying of a port's pending collection, whole. -/
theorem State.emptyPending_eq (s : State) (p : PortNo) :
    s.emptyPending p = (s.setPort p ((s.port p).emptied s.time)).setLink
      (s.link.refuse p s.time (grantOrder TransferEntry.before (s.port p).transfers)) := by
  exact State.foldl_transferReply (s.setPort p ((s.port p).emptied s.time)) p
    (grantOrder TransferEntry.before (s.port p).transfers)

/-- A held configuration applied, whole. -/
theorem State.applyHeld_eq (s : State) (p : PortNo) : ∃ l, (LinkLaw s.link → LinkLaw l)
    ∧ s.applyHeld p = (s.setPort p (s.port p).applied).setLink l := by
  unfold State.applyHeld Port.applied
  cases (s.port p).held with
  | none => exact ⟨s.link, id, by rw [s.setPort_self]; rfl⟩
  | some h => exact ⟨_, fun law => law.reply _ _, rfl⟩

/-- An outcome that leaves one new port and one new link. -/
def OutcomeAt (s : State) (p : PortNo) (cs : List Completion) (ms : List Settling) (outcome : State → State) : Prop :=
  ∀ q, ∃ l, (LinkLaw s.link → LinkLaw l) ∧ outcome (s.setPort p q) = (s.setPort p (q.receives cs ms)).setLink l

/-- The port after the end of a grant. -/
def Port.ended (q : Port) (now : Time) (after : PortState) (cs : List Completion) (ms : List Settling) : Port :=
  let r := Port.receives { q with granted := none, stretch := none, state := after } cs ms
  (if after = .blocked then r.emptied now else r).applied

theorem State.endGrant_eq {s : State} {p : PortNo} {cs : List Completion} {ms : List Settling} {outcome : State → State}
    (ho : OutcomeAt s p cs ms outcome) (after : PortState) : ∃ l, (LinkLaw s.link → LinkLaw l)
    ∧ s.endGrant p after outcome = (s.setPort p ((s.port p).ended s.time after cs ms)).setLink l := by
  obtain ⟨l, hl, e⟩ := ho { s.port p with granted := none, stretch := none, state := after }
  unfold State.endGrant Port.ended
  simp only [e]
  split
  · rw [State.emptyPending_eq]
    obtain ⟨m, hm, e⟩ := State.applyHeld_eq _ p
    refine ⟨m, fun law => hm ((hl law).refuse _ _ _), e.trans ?_⟩
    simp only [State.setLink_port, State.setPort_port, State.setPort_setLink_setPort, State.setLink_setLink,
      State.setLink_time, State.setPort_time]
  · obtain ⟨m, hm, e⟩ := State.applyHeld_eq ((s.setPort p _).setLink l) p
    refine ⟨m, fun law => hm (hl law), e.trans ?_⟩
    simp only [State.setLink_port, State.setPort_port, State.setPort_setLink_setPort, State.setLink_setLink]

theorem Port.applied_tally (q : Port) (m : ProbeRequest → Bool) : q.applied.tally m = q.tally m := by
  unfold Port.applied
  split <;> rfl

theorem Port.emptied_tally (q : Port) (now : Time) (m : ProbeRequest → Bool) : (q.emptied now).tally m = q.tally m := by
  have moved : ((grantOrder ProbeEntry.before q.arb.pending).map (fun e => blockedCompletion e.req now)).countP
      (fun c => m c.req) = q.arb.pending.countP (fun e => m e.req) := by
    rw [List.countP_map, (grantOrder_perm _ _).countP_eq]
    rfl
  simp only [Port.tally, Port.emptied, Arbiter.tally, List.countP_append, moved, List.countP_nil]
  omega

theorem Port.receives_tally (q : Port) (cs : List Completion) (ms : List Settling) (m : ProbeRequest → Bool) :
    (q.receives cs ms).tally m = q.tally m + cs.countP (fun c => m c.req) + ms.countP (fun x => m x.entry.req) := by
  simp only [Port.tally, Port.receives, Arbiter.tally, List.countP_append]
  omega

theorem Port.ended_tally (q : Port) (now : Time) (after : PortState) (cs : List Completion) (ms : List Settling)
    (m : ProbeRequest → Bool)
    (moved : grantTally m q.granted = cs.countP (fun c => m c.req) + ms.countP (fun x => m x.entry.req)) :
    (q.ended now after cs ms).tally m = q.tally m := by
  have released : Port.tally m { q with granted := none, stretch := none, state := after } + grantTally m q.granted
      = q.tally m := by simp only [Port.tally, grantTally]; omega
  unfold Port.ended
  rw [Port.applied_tally]
  split
  · rw [Port.emptied_tally, Port.receives_tally]; omega
  · rw [Port.receives_tally]; omega

/-- An applied configuration completes the law: whatever was held is held no more. -/
theorem PortLaw.applied {q : Port} (hs : q.state = .idle ∨ q.state = .blocked) (hg : q.granted = none)
    (hp : q.state = .blocked → q.arb.pending = [] ∧ q.transfers = []) (hr : q.transfers.length ≤ 8)
    (ht : q.stretch = none) : PortLaw q.applied := by
  unfold Port.applied
  cases hh : q.held with
  | none => exact .of_released hs hg hp hr hh ht
  | some h => exact .of_released (q := { q with config := h.config, held := none }) hs hg hp hr rfl ht

theorem PortLaw.ended {q : Port} (h : PortLaw q) (now : Time) {after : PortState}
    (ha : after = .idle ∨ after = .blocked) (cs : List Completion) (ms : List Settling) :
    PortLaw (q.ended now after cs ms) := by
  unfold Port.ended
  rcases ha with rfl | rfl
  · exact .applied (.inl rfl) rfl nofun h.room rfl
  · exact .applied (.inr rfl) rfl (fun _ => ⟨rfl, rfl⟩) (Nat.zero_le _) rfl

/-- The end of a grant keeps every law, when the outcome hands on what was granted. -/
theorem Keeps.endGrant (x : Option ProbeRequest) {s : State} {p : PortNo} {cs : List Completion} {ms : List Settling}
    {outcome : State → State} (ho : OutcomeAt s p cs ms outcome) {after : PortState}
    (ha : after = .idle ∨ after = .blocked)
    (moved : ∀ m, grantTally m (s.port p).granted
      = cs.countP (fun c => m c.req) + ms.countP (fun x => m x.entry.req)) :
    Keeps x x s (s.endGrant p after outcome) := by
  obtain ⟨l, hl, e⟩ := State.endGrant_eq ho after
  rw [e]
  exact (Keeps.setPort s p _ (·.ended s.time ha cs ms) fun _ m => Port.ended_tally _ _ _ _ _ m (moved m)).trans
    (.setLink x _ l hl)

/-- A reply as an outcome: nothing is handed on. -/
theorem OutcomeAt.reply (s : State) (p : PortNo) (ref : ReqRef) (st : Status) (items : State → List Byte) :
    OutcomeAt s p [] [] (fun u => u.reply ref st (items u)) := by
  intro q
  have e : q.receives [] [] = q := by simp [Port.receives]
  rw [e]
  exact ⟨_, fun law => law.reply _ _, rfl⟩

theorem Keeps.finishProbe (x : Option ProbeRequest) {s : State} {p : PortNo} {g : PortGrant} {e : ProbeEntry}
    {phase : Phase} {n : Nat} (hg : (s.port p).granted = some g) (hw : g.work = .probe e phase n) {after : PortState}
    (ha : after = .idle ∨ after = .blocked) (st : CompStatus) (data : List Byte) (attempts : Nat) :
    Keeps x x s (s.finishProbe p after e st data attempts) := by
  refine .endGrant x
    (cs := [{ req := e.req, status := st, data := data, attempts := attempts, time := s.time }]) (ms := []) ?_ ha ?_
  · intro q
    refine ⟨s.link, id, ?_⟩
    simp only [State.setPort_port, State.setPort_setPort, Port.receives, List.append_nil]
    rfl
  · intro m
    simp only [hg, grantTally, hw, PortWork.tally, List.countP_singleton, List.countP_nil, Nat.add_zero]

theorem Keeps.finishTransfer (x : Option ProbeRequest) {s : State} {p : PortNo} {g : PortGrant} {t : TransferEntry}
    (hg : (s.port p).granted = some g) (hw : g.work = .transfer t) {after : PortState}
    (ha : after = .idle ∨ after = .blocked) (st : CompStatus) (data : List Byte) :
    Keeps x x s (s.finishTransfer p after t st data) := by
  refine .endGrant x (OutcomeAt.reply s p _ _ fun u => _) ha fun m => ?_
  simp only [hg, grantTally, hw, PortWork.tally, List.countP_nil]

theorem Keeps.finishClear (x : Option ProbeRequest) {s : State} {p : PortNo} {g : PortGrant} {ref made : _}
    (hg : (s.port p).granted = some g) (hw : g.work = .clear ref made) (pulses : Nat) (cleared : Bool) :
    Keeps x x s (s.finishClear p ref pulses cleared) := by
  refine .endGrant x (OutcomeAt.reply s p _ _ fun u => _) (by cases cleared <;> simp) fun m => ?_
  simp only [hg, grantTally, hw, PortWork.tally, List.countP_nil]

/-- The cause and the time of a block have no part in any law. -/
theorem Keeps.recordBlock (x : Option ProbeRequest) (s : State) (p : PortNo) (cause : BlockCause) :
    Keeps x x s (s.recordBlock p cause) :=
  .setPort s p _ (·.congr rfl rfl rfl rfl rfl (fun _ => rfl)) (fun _ _ => rfl)

@[simp] theorem State.recordBlock_granted (s : State) (p : PortNo) (cause : BlockCause) :
    ((s.recordBlock p cause).port p).granted = (s.port p).granted := by simp [State.recordBlock]

theorem Keeps.blockingFault (x : Option ProbeRequest) {s : State} {p : PortNo} {g : PortGrant}
    (hg : (s.port p).granted = some g) (cause : BlockCause) : Keeps x x s (s.blockingFault p cause g.work) := by
  have hr : ((s.recordBlock p cause).port p).granted = some g := by rw [State.recordBlock_granted, hg]
  cases hw : g.work with
  | probe e phase n => exact (Keeps.recordBlock x s p cause).trans (.finishProbe x hr hw (.inr rfl) _ _ _)
  | transfer t => exact (Keeps.recordBlock x s p cause).trans (.finishTransfer x hr hw (.inr rfl) _ _)
  | clear ref n => exact .refl x s

/-! ### Bus commands -/

/-- The work in progress is that of the granted entry, and the stretch timer does not run. -/
theorem Port.running_eq_some {q : Port} {w : PortWork} (h : q.running = some w) :
    ∃ g, q.granted = some g ∧ g.work = w ∧ q.stretch = none := by
  unfold Port.running at h
  split at h
  · rename_i g hs hg
    exact ⟨g, hg, Option.some.inj h, hs⟩
  · simp at h

/-- A granted probe goes on with another phase or attempt. -/
theorem Keeps.setWork_probe (x : Option ProbeRequest) {s : State} {p : PortNo} {g : PortGrant} {e : ProbeEntry}
    {phase : Phase} {n : Nat} (hg : (s.port p).granted = some g) (hw : g.work = .probe e phase n) (phase' : Phase)
    (n' : Nat) : Keeps x x s (s.setWork p (.probe e phase' n')) := by
  refine .setPort s p _ (fun h => ?_) fun _ m => ?_
  · have active := h.state_of_granted hg
    simp only [hw] at active
    exact {
      fits := by simp [Port.stateFits, active, hg]
      blocked := h.blocked, room := h.room
      held := fun _ => by simp [hg]
      stretch := fun _ => by simp [hg] }
  · simp only [Port.tally, hg, Option.map_some, grantTally, hw, PortWork.tally]

theorem exec_endOfPreludePhase_keeps (p : PortNo) (s : State) : AnswersKeeping s (exec (.endOfPreludePhase p) s) := by
  simp only [exec, execEndOfPreludePhase]
  split
  · rename_i e n hr
    obtain ⟨g, hg, hw, _⟩ := Port.running_eq_some hr
    split
    · split
      · exact .same s
      · rename_i pre _
        split
        · exact .next (.setWork_probe none hg hw _ _)
        · refine .next (.endGrant none (cs := [])
            (ms := [{ entry := { e with preludeDone := true }, expiry := s.time + msTime pre.settle.toNat }])
            ?_ (.inl rfl) ?_)
          · intro q
            refine ⟨s.link, id, ?_⟩
            simp only [State.setPort_port, State.setPort_setPort, Port.receives, List.append_nil]
            rfl
          · intro m
            simp only [hg, grantTally, hw, PortWork.tally, List.countP_singleton, List.countP_nil, Nat.zero_add]
    · exact .same s
  · exact .same s

theorem exec_readPhaseEnd_keeps (p : PortNo) (data : List Byte) (s : State) :
    AnswersKeeping s (exec (.readPhaseEnd p data) s) := by
  simp only [exec, execReadPhaseEnd]
  split
  · rename_i e n hr
    obtain ⟨g, hg, hw, _⟩ := Port.running_eq_some hr
    split
    · exact .next (.finishProbe none hg hw (.inl rfl) _ _ _)
    · exact .same s
  · exact .same s

theorem exec_addrNak_keeps (p : PortNo) (k : Nat) (s : State) : AnswersKeeping s (exec (.addrNak p k) s) := by
  simp only [exec, execAddrNak]
  split
  · exact .same s
  · rename_i w hr
    obtain ⟨g, hg, hw, _⟩ := Port.running_eq_some hr
    split
    · cases w with
      | probe e phase n =>
        simp only
        split
        · exact .next (.setWork_probe none hg hw _ _)
        · exact .next (.finishProbe none hg hw (.inl rfl) _ _ _)
      | transfer t => exact .next (.finishTransfer none hg hw (.inl rfl) _ _)
      | clear ref n => exact .same s
    · exact .same s

theorem exec_dataNak_keeps (p : PortNo) (k : Nat) (s : State) : AnswersKeeping s (exec (.dataNak p k) s) := by
  simp only [exec, execDataNak]
  split
  · exact .same s
  · rename_i w hr
    obtain ⟨g, hg, hw, _⟩ := Port.running_eq_some hr
    split
    · cases w with
      | probe e phase n => exact .next (.finishProbe none hg hw (.inl rfl) _ _ _)
      | transfer t => exact .next (.finishTransfer none hg hw (.inl rfl) _ _)
      | clear ref n => exact .same s
    · exact .same s

theorem exec_contention_keeps (p : PortNo) (s : State) : AnswersKeeping s (exec (.contention p) s) := by
  simp only [exec, execContention]
  split
  · exact .same s
  · rename_i g hg
    exact .next (.blockingFault none hg _)

theorem exec_directTransferEnd_keeps (p : PortNo) (data : List Byte) (s : State) :
    AnswersKeeping s (exec (.directTransferEnd p data) s) := by
  simp only [exec, execDirectTransferEnd]
  split
  · rename_i t hr
    obtain ⟨g, hg, hw, _⟩ := Port.running_eq_some hr
    split
    · exact .next (.finishTransfer none hg hw (.inl rfl) _ _)
    · exact .same s
  · exact .same s

theorem exec_clearEnd_keeps (p : PortNo) (pulses : Nat) (linesHigh : Bool) (s : State) :
    AnswersKeeping s (exec (.clearEnd p pulses linesHigh) s) := by
  simp only [exec, execClearEnd]
  split
  · rename_i ref made hr
    obtain ⟨g, hg, hw, _⟩ := Port.running_eq_some hr
    split
    · exact .next (.finishClear none hg hw _ _)
    · exact .same s
  · exact .same s

/-! ### The stretch timer and the settle timer (R93, R112) -/

/-- The stretch timer starts during a grant. -/
theorem PortLaw.setStretch {q : Port} (h : PortLaw q) (hg : q.granted.isSome = true) (t : Option Time) :
    PortLaw { q with stretch := t } :=
  { fits := h.fits, blocked := h.blocked, room := h.room, held := h.held, stretch := fun _ => hg }

theorem exec_stretching_keeps (p : PortNo) (pulses : Nat) (s : State) :
    AnswersKeeping s (exec (.stretching p pulses) s) := by
  simp only [exec, execStretching]
  split
  · rename_i g _ hg
    split
    · rename_i ref made hw
      split
      · refine .next (.setPort s p _ (fun h => ?_) fun _ m => ?_)
        · have clearing := h.state_of_granted hg
          simp only [hw] at clearing
          exact {
            fits := by simp [Port.stateFits, clearing]
            blocked := h.blocked, room := h.room, held := fun _ => rfl, stretch := fun _ => rfl }
        · simp only [Port.tally, hg, grantTally, hw, PortWork.tally]
      · exact .same s
    all_goals exact .next (.setPort s p _ (·.setStretch (by simp [hg]) _) fun _ _ => rfl)
  · exact .same s

theorem exec_sclRises_keeps (p : PortNo) (s : State) : AnswersKeeping s (exec (.sclRises p) s) :=
  .next (.setPort s p _
    (fun h => { fits := h.fits, blocked := h.blocked, room := h.room, held := h.held, stretch := by simp })
    fun _ _ => rfl)

theorem exec_stretchTimerExpiry_keeps (p : PortNo) (s : State) :
    AnswersKeeping s (exec (.stretchTimerExpiry p) s) := by
  simp only [exec, execStretchTimerExpiry]
  split
  · rename_i t g _ hg
    split
    · split
      · rename_i ref n hw
        exact .next (.finishClear none hg hw _ _)
      all_goals exact .next (.blockingFault none hg _)
    · exact .same s
  · exact .same s

/-- A member taken out of a list by its place is one fewer of those that satisfy what it does. -/
theorem countP_eraseIdx_add {α : Type} (p : α → Bool) {l : List α} {k : Nat} {a : α} (h : l[k]? = some a) :
    (l.eraseIdx k).countP p + (if p a then 1 else 0) = l.countP p := by
  obtain ⟨hk, rfl⟩ := List.getElem?_eq_some_iff.1 h
  rw [← (List.getElem_cons_eraseIdx_perm hk).countP_eq p, List.countP_cons]

theorem exec_settleExpiry_keeps (p : PortNo) (k : Nat) (s : State) :
    AnswersKeeping s (exec (.settleExpiry p k) s) := by
  simp only [exec, execSettleExpiry]
  split
  · exact .same s
  · rename_i m hm
    split
    · have moved := fun f : ProbeRequest → Bool => countP_eraseIdx_add (fun x : Settling => f x.entry.req) hm
      split
      · rename_i places
        refine .next (.setPort s p _ (·.congr rfl rfl rfl rfl rfl (by simp [places])) fun _ f => ?_)
        have := moved f
        simp only [Port.tally, Arbiter.tally, List.countP_append, List.countP_singleton]
        omega
      · refine .next (.setPort s p _ (·.congr rfl rfl rfl rfl rfl fun _ => rfl) fun _ f => ?_)
        have := moved f
        simp only [Port.tally, Arbiter.tally, Arbiter.hand, blockedCompletion, List.countP_append, List.countP_singleton]
        omega
    · exact .same s

/-! ### PORT requests (R116 to R122) -/

/-- A request taken from a port owner's list leaves a state that keeps every law. -/
theorem Keeps.takePort (x : Option ProbeRequest) {s t : State} {o : PortOwner} {k : ReqKind} {r : Request}
    (h : s.takePort o k = some (r, t)) : Keeps x x s t := by
  unfold State.takePort at h
  split at h
  · simp at h
  · cases h
    exact .setHand x s _

/-- A valid PORT.SET is applied or held (R97, R98). -/
theorem Keeps.offerConfig (x : Option ProbeRequest) (s : State) (p : PortNo) (ref : ReqRef) (c : PortConfig) :
    Keeps x x s (s.offerConfig p ref c) := by
  simp only [State.offerConfig]
  split
  · exact (Keeps.setPort s p { s.port p with config := c } (·.congr rfl rfl rfl rfl rfl fun _ => rfl)
      fun _ _ => rfl).trans (.reply x _ _ _ _)
  · rename_i g hg
    have held : Keeps x x s (s.setPort p { s.port p with held := some { config := c, ref := ref } }) :=
      .setPort s p _
        (fun h => { fits := h.fits, blocked := h.blocked, room := h.room, held := fun _ => by simp [hg], stretch := h.stretch })
        fun _ _ => rfl
    split
    · exact held
    · exact held.trans (.reply x _ _ _ _)

theorem exec_portSet_keeps (o : PortOwner) (s : State) : AnswersKeeping s (exec (.portSet o) s) := by
  simp only [exec, execPortSet]
  split
  · exact .same s
  · rename_i r t ht
    have taken := Keeps.takePort none ht
    cases o with
    | block => exact .next (taken.trans (.reply _ _ _ _ _))
    | tw p =>
      simp only
      split
      · exact .next (taken.trans (.reply _ _ _ _ _))
      · exact .next (taken.trans (.offerConfig _ _ _ _ _))

theorem exec_portGet_keeps (o : PortOwner) (s : State) : AnswersKeeping s (exec (.portGet o) s) := by
  simp only [exec, execPortGet]
  split
  · exact .same s
  · rename_i r t ht
    have taken := Keeps.takePort none ht
    cases o <;> exact .next (taken.trans (.reply _ _ _ _ _))

theorem exec_portXfer_keeps (o : PortOwner) (s : State) : AnswersKeeping s (exec (.portXfer o) s) := by
  simp only [exec, execPortXfer]
  split
  · exact .same s
  · rename_i r t ht
    have taken := Keeps.takePort none ht
    cases o with
    | block => exact .next (taken.trans (.reply _ _ _ _ _))
    | tw p =>
      simp only
      split
      · exact .next (taken.trans (.reply _ _ _ _ _))
      · exact .next (taken.trans (.setArrivals _ _ _ _))

theorem exec_portClear_keeps (o : PortOwner) (s : State) : AnswersKeeping s (exec (.portClear o) s) := by
  simp only [exec, execPortClear]
  split
  · exact .same s
  · rename_i r t ht
    have taken := Keeps.takePort none ht
    cases o with
    | block => exact .next (taken.trans (.reply _ _ _ _ _))
    | tw p =>
      have arrived := taken.trans (.takeArrivals none t p)
      simp only
      split
      · rename_i blocked
        refine .next (arrived.trans (.setPort _ p _ (fun h => ?_) fun h m => ?_))
        · obtain ⟨hp, htr⟩ := h.blocked ((Port.not_places_iff _).2 (.inl blocked))
          exact {
            fits := trivial, blocked := fun _ => ⟨hp, htr⟩, room := h.room, held := fun _ => rfl, stretch := fun _ => rfl }
        · simp only [Port.tally, h.not_granted_of_blocked blocked, grantTally, PortWork.tally]
      · exact .next (arrived.trans (.reply _ _ _ _ _))

/-! ### The converter (Chapter 7) -/

theorem exec_endOfWake_keeps (s : State) : AnswersKeeping s (exec .endOfWake s) := by
  simp only [exec, execEndOfWake]
  split
  · rename_i c hp hg
    split
    · refine .next (.setConv s _ (fun h => ?_) fun m => ?_)
      · have stopped : s.conv.idleTimer.isSome = true → False := fun ht => by
          have := h.timer ht
          simp [hp] at this
        exact {
          granted := by simp
          timer := fun ht => (stopped ht).elim
          delay := h.delay
          sum := fun g e => by cases e; exact h.sum c hg }
      · simp only [Converter.tally, hg, conversionTally]
    · exact .same s
  · exact .same s

theorem exec_endOfConversion_keeps (v : Sample) (s : State) : AnswersKeeping s (exec (.endOfConversion v) s) := by
  simp only [exec, execEndOfConversion]
  split
  · rename_i c hp hg
    split
    · refine .next (.setConv s _ (fun h => ?_) fun m => ?_)
      · exact { granted := by simp, timer := fun _ => rfl, delay := h.delay, sum := by simp }
      · simp only [Converter.tally, Arbiter.tally, Arbiter.hand, hg, conversionTally, List.countP_append,
          List.countP_singleton]
        omega
    · exact .same s
  · exact .same s

theorem exec_idleTimerExpiry_keeps (s : State) : AnswersKeeping s (exec .idleTimerExpiry s) := by
  simp only [exec, execIdleTimerExpiry]
  split
  · exact .same s
  · split
    · rename_i due
      refine .next (.setConv s _ (fun h => ?_) fun _ => rfl)
      exact {
        granted := by have := h.granted; simp only [due.2] at this; simpa using this
        timer := by simp, delay := h.delay, sum := h.sum }
    · exact .same s

theorem ConverterLaw.setDelay {c : Converter} (h : ConverterLaw c) (now : Time) (delay : Byte)
    (hd : delay.toNat ≤ 250) : ConverterLaw (c.setDelay now delay) where
  granted := h.granted
  timer := by
    simp only [Converter.setDelay]
    split
    · intro _; assumption
    · exact h.timer
  delay := hd
  sum := h.sum

theorem exec_analogSet_keeps (s : State) : AnswersKeeping s (exec .analogSet s) := by
  simp only [exec, execAnalogSet]
  split
  · exact .same s
  · rename_i r rest _
    have taken := Keeps.setHand none s { s.hand with converter := rest }
    split
    · exact .next (taken.trans (.reply _ _ _ _ _))
    · rename_i hd
      exact .next ((taken.trans (.setConv _ _ (·.setDelay _ _ (by omega)) fun _ => rfl)).trans (.reply _ _ _ _ _))

theorem exec_analogGet_keeps (s : State) : AnswersKeeping s (exec .analogGet s) := by
  simp only [exec, execAnalogGet]
  split
  · exact .same s
  · exact .next ((Keeps.setHand none s _).trans (.reply _ _ _ _ _))

/-- A sample joins the running sum (R126): no sample value is above 4095. -/
theorem ConverterLaw.addSample {c : Converter} (h : ConverterLaw c) (v : Sample) : ConverterLaw (c.addSample v) where
  granted := by simp only [Converter.addSample, Option.isSome_map]; exact h.granted
  timer := h.timer
  delay := h.delay
  sum := by
    simp only [Converter.addSample, Option.map_eq_some_iff]
    rintro g ⟨a, ha, rfl⟩
    have := h.sum a ha
    have := v.isLt
    simp only
    omega

/-- One microsecond keeps every law. -/
theorem Keeps.advance (s : State) : Keeps none none s s.advance := by
  have tick : Keeps none none s { s with time := s.time + 1 } :=
    .of_frame id (·.congr rfl rfl) rfl rfl (.refl _) rfl rfl
  simp only [State.advance]
  split
  · refine (tick.trans (.setConv _ (s.conv.addSample (Config.sampleValue s.free)) (·.addSample _) fun m => ?_)).trans
      (.queue_free none _ s.pending (s.free + 1))
    simp only [Converter.tally, Converter.addSample]
    cases s.conv.granted <;> rfl
  · exact tick

end Sys2Proof.Machine
end

section
/-! PROOFS. The Host Link, the Result Store, the Probe Table and the Time Base keep every law (Chapters 1, 4, 9 and 10); the
reset state satisfies them. -/

namespace Sys2Proof.Machine

/-! ### The reset state -/

@[simp] theorem State.reset_slot (k : Fin 64) : State.reset.slot k = ProbeSlot.reset := by
  simp [State.reset, State.slot]
@[simp] theorem State.reset_sweep (i : SweepNo) : State.reset.sweep i = Sweep.reset := by
  simp [State.reset, State.sweep]
@[simp] theorem State.reset_pagesOf (i : SweepNo) : State.reset.pagesOf i = Pages.reset := by
  simp [State.reset, State.pagesOf]
@[simp] theorem State.reset_port (p : PortNo) : State.reset.port p = Port.reset := by
  simp [State.reset, State.port]
@[simp] theorem State.reset_watch (k : Fin 64) : State.reset.watch k = WatchSlot.reset := by
  simp [State.reset, State.watch]

theorem ReferenceLaw.reset : ReferenceLaw State.reset where
  counted k := by simp [State.nameCount, Sweep.list, Sweep.reset, ProbeSlot.reset]
  defined i k := by simp [Sweep.list, Sweep.reset]
  distinct i := by simp [Sweep.list, Sweep.reset]
  empty i := by simp [Sweep.reset]

theorem SweepLaw.reset : SweepLaw Sweep.reset where
  empty := by simp [Sweep.reset]
  range := by simp [Sweep.reset]
  running := by simp [Sweep.reset]
  positions := by simp [Sweep.reset]
  timer := rfl
  remnant := by simp [Sweep.reset]
  held := by simp [Sweep.reset]
  missed := Nat.zero_le _

theorem State.reset_tally (m : ProbeRequest → Bool) : State.reset.tally m = 0 := by
  simp [State.tally, Port.tally, Port.reset, Arbiter.tally, Arbiter.reset, grantTally, Converter.tally, conversionTally,
    State.reset, Converter.reset, State.port]

theorem OutstandingWith.reset : OutstandingWith none State.reset := fun i => by
  simp [Sweep.fits_of_quiet (w := Sweep.reset) (.inl rfl), State.reset_tally]

theorem WaiterLaw.reset : WaiterLaw State.reset :=
  { room := Nat.zero_le _, waiting := fun w hw => absurd hw (by simp [State.reset]) }

theorem PortLaw.reset : PortLaw Port.reset :=
  .of_released (.inl rfl) rfl (fun _ => ⟨rfl, rfl⟩) (Nat.zero_le _) rfl rfl

theorem ConverterLaw.reset : ConverterLaw Converter.reset where
  granted := by simp [Converter.reset]
  timer := by simp [Converter.reset]
  delay := by simp [Converter.reset]
  sum := by simp [Converter.reset]

theorem WatchLaw.reset : WatchLaw State.reset where
  failing k := by simp [WatchSlot.reset]
  dropped := Nat.zero_le _

/-- Settles O5: the reset state of each block satisfies its law. -/
theorem resetKeepsTheLaws : Obligations.ResetKeepsTheLaws := by
  unfold Obligations.ResetKeepsTheLaws
  exact ⟨LinkLaw.reset .powerOn false false, .reset, fun i => by simpa using SweepLaw.reset,
    (outstandingWith_none _).1 .reset, .reset, fun p => by simpa using PortLaw.reset, .reset, .reset⟩

/-- Settles O4: the fields of the reset values, slot by slot and sweep by sweep. -/
theorem resetValues : Obligations.ResetValues := by
  unfold Obligations.ResetValues
  refine ⟨fun k => State.reset_slot k, fun i => ?_, fun i => ?_, rfl, fun p => State.reset_port p, rfl,
    fun k => State.reset_watch k, rfl, rfl, rfl, rfl, rfl, rfl, rfl, rfl, rfl, rfl, rfl, rfl, rfl, rfl, rfl⟩
  · rw [State.reset_sweep]
    exact ⟨rfl, rfl, rfl, rfl, rfl, rfl, rfl, rfl, rfl, rfl⟩
  · rw [State.reset_pagesOf]
    exact ⟨rfl, rfl⟩

/-- A device reset keeps every law: whatever stood before, the reset values satisfy them. -/
theorem Keeps.deviceReset (s : State) (r : Reason) (nrst : Bool) : Keeps none none s (s.deviceReset r nrst) where
  link _ := .reset r _ _
  refs _ := ReferenceLaw.reset.congr rfl (fun _ => rfl) (fun _ => Iff.rfl)
  sweeps _ i := (State.reset_sweep i).symm ▸ SweepLaw.reset.form
  outstanding _ _ _ _ := OutstandingWith.reset
  waiters _ := WaiterLaw.reset.sublist (.refl _) (fun _ _ => id)
  ports _ p := (State.reset_port p).symm ▸ PortLaw.reset
  conv _ := .reset
  watch _ := WatchLaw.reset.congr rfl rfl

/-! ### Exchanges (R157 to R163) -/

/-- Pins and the CRC-error note have no part in the law of the link. -/
theorem LinkLaw.setPins {l : Link} (h : LinkLaw l) (sel nrst note : Bool) :
    LinkLaw { l with sel := sel, nrst := nrst, crcNote := note } :=
  h.congr rfl rfl rfl rfl (fun hc => (h.closedIdle hc).2) rfl rfl rfl

/-- An exchange begins with the offer of the law. -/
theorem LinkLaw.beginExchange {l : Link} (h : LinkLaw l) :
    LinkLaw { l with sel := true, exchange := some l.choose, crcNote := false } where
  budget := h.budget
  eventRoom := h.eventRoom
  hello := h.hello
  closedIdle := h.closedIdle
  sentOldest := h.sentOldest
  passed := h.passed
  consecutive := h.consecutive
  offered := by
    rintro x hx hq
    cases hx
    exact l.choose_queued hq
  attention := h.attention

theorem exec_selAssertion_keeps (s : State) : AnswersKeeping s (exec .selAssertion s) := by
  simp only [exec, execSelAssertion]
  split
  · exact .same s
  · split
    · exact .next (.setLink none s _ fun h => h.setPins true s.link.nrst s.link.crcNote)
    · exact .next (.setLink none s _ fun h => h.beginExchange)

theorem exec_nrstAssertion_keeps (s : State) : AnswersKeeping s (exec .nrstAssertion s) := .next (.deviceReset s _ _)

theorem exec_nrstRelease_keeps (s : State) : AnswersKeeping s (exec .nrstRelease s) :=
  .next (.setLink none s _ fun h => h.setPins s.link.sel false s.link.crcNote)

/-- A request handed to its owner changes the hand-off lists only, or the inbox. -/
theorem Keeps.handOff (x : Option ProbeRequest) (s : State) (r : Request) : Keeps x x s (s.handOff r) := by
  simp only [State.handOff]
  cases r.kind.owner with
  | watchUnit => exact .setInbox x s _
  | _ => exact .setHand x s _

/-- An acceptable frame is accepted, and handed to an owner, refused, or a device reset. -/
theorem Keeps.accept (s : State) (f : HostFrame) (room : s.link.use < 8) (opened : s.link.state = .opened) :
    Keeps none none s (s.accept f) := by
  have accepted : ∀ ref, Keeps none none s (s.setLink (s.link.accept ref)) := fun ref =>
    .setLink none s _ fun h => h.accept ref room opened
  simp only [State.accept]
  split
  · split
    · exact (accepted _).trans (.handOff none _ _)
    · exact (accepted _).trans (.reply none _ _ _ _)
  · split
    · exact (accepted _).trans (.deviceReset _ _ _)
    · split <;> exact (accepted _).trans (.reply none _ _ _ _)

theorem Link.acknowledge_exchange (l : Link) (a : Byte) : (l.acknowledge a).exchange = l.exchange := by
  simp only [Link.acknowledge]
  split <;> rfl

theorem Link.resend_exchange (l : Link) (b : Bool) : (l.resend b).exchange = l.exchange := by
  simp only [Link.resend]
  split <;> rfl

/-- A valid frame in OPEN, after its exchange. -/
theorem Keeps.takeFrame (s : State) (f : HostFrame) (ended : s.link.exchange = none) (opened : s.link.state = .opened) :
    Keeps none none s (s.takeFrame f) := by
  have heard : Keeps none none s (s.setLink ((s.link.acknowledge f.ack).resend f.resend)) :=
    .setLink none s _ fun h =>
      (h.acknowledge ended f.ack).resend (by rw [Link.acknowledge_exchange, ended]) f.resend
  simp only [State.takeFrame]
  split
  · exact heard
  · split
    · rename_i acceptable
      exact heard.trans (.accept _ f acceptable.2 (by simp [opened]))
    · exact heard

/-- A link restart (R170). -/
theorem Keeps.restart (s : State) (seq : Byte) (ended : s.link.exchange = none) : Keeps none none s (s.restart seq) :=
  .of_frame (fun _ => .start _ _ _ _ rfl ended)
    (fun h => { failing := h.failing, dropped := satAdd_le _ _ _ }) rfl rfl (List.nil_sublist _) rfl rfl

theorem Keeps.takeExchange (s : State) (sdi : List Byte) (ended : s.link.exchange = none) :
    Keeps none none s (s.takeExchange sdi) := by
  unfold State.takeExchange
  split
  · exact .setLink none s _ fun h => h.setPins s.link.sel s.link.nrst true
  · split
    · split
      · rename_i closed
        exact .setLink none s _ fun h => .start _ _ _ _ (h.closedIdle closed).1 ended
      · exact .restart s _ ended
    · split
      · exact .refl none s
      · exact .takeFrame s _ ended (by assumption)

theorem exec_exchangeEnd_keeps (sdi : List Byte) (s : State) : AnswersKeeping s (exec (.exchangeEnd sdi) s) := by
  by_cases hs : s.link.sel = true
  · cases hx : s.link.exchange with
    | none =>
      simp only [exec, execExchangeEnd, hs, if_true, State.setLink_link, hx]
      exact .next (.setLink none s _ fun h => h.endExchange.congr rfl rfl rfl rfl
        (fun hc => (h.closedIdle hc).2) rfl rfl rfl)
    | some x =>
      rw [exec_exchangeEnd s x sdi hs hx]
      have settled : Keeps none none s (s.offerSettled x sdi) := .setLink none s _ fun h => h.settle x _ hx
      exact .next (settled.trans (.takeExchange _ sdi (by simp [State.offerSettled])))
  · simp only [exec, execExchangeEnd, hs]
    exact .same s

/-! ### Result Store and Time Base -/

theorem Keeps.fetchNewer (s : State) (ref : ReqRef) (f : Fetch) (pass : Word) (waitMs : Half) :
    Keeps none none s (s.fetchNewer ref f pass waitMs) := by
  simp only [State.fetchNewer]
  split
  · exact .reply none s _ _ _
  split
  · exact .reply none s _ _ _
  rename_i waits
  split
  · exact .reply none s _ _ _
  rename_i room
  split
  · exact {
      link := id
      refs := fun h => h.congr rfl (fun _ => rfl) (fun _ => Iff.rfl)
      sweeps := id
      outstanding := fun _ _ _ h => h
      waiters := fun h => {
        room := by simp only [State.setWaiters_waiters, List.length_append, List.length_singleton]; omega
        waiting := by
          intro w hw
          rcases List.mem_append.1 hw with hw | hw
          · exact h.waiting w hw
          · have e := List.mem_singleton.1 hw
            subst e
            cases hst : (s.sweep f.sweep).state <;> simp_all [SweepState.triggerable] }
      ports := id
      conv := id
      watch := fun h => h.congr rfl rfl }
  · exact .setLink none s _ fun h =>
      h.congr rfl rfl rfl rfl (fun hc => by simp only [(h.closedIdle hc).2, dropRef_nil]) rfl rfl rfl

theorem exec_resultFetch_keeps (s : State) : AnswersKeeping s (exec .resultFetch s) := by
  simp only [exec, execResultFetch]
  split
  · exact .same s
  · rename_i r rest _
    refine .next ((Keeps.setHand none s { s.hand with resultStore := rest }).trans ?_)
    simp only [State.fetch]
    split
    · exact .reply none _ _ _ _
    · split
      · exact .reply none _ _ _ _
      · split <;> exact .reply none _ _ _ _
      · exact .fetchNewer _ _ _ _ _

theorem exec_waitExpiry_keeps (k : Nat) (s : State) : AnswersKeeping s (exec (.waitExpiry k) s) := by
  simp only [exec, execWaitExpiry]
  split
  · exact .same s
  · split
    · refine .next (Keeps.trans ?_ (.reply none _ _ _ _))
      exact .of_frame id (·.congr rfl rfl) rfl rfl (List.eraseIdx_sublist _ k) rfl rfl
    · exact .same s

theorem exec_timeGet_keeps (s : State) : AnswersKeeping s (exec .timeGet s) := by
  simp only [exec, execTimeGet]
  split
  · exact .same s
  · exact .next ((Keeps.setHand none s _).trans (.reply none _ _ _ _))

/-! ### Probe Table (R7, R10, R13) -/

theorem Keeps.takeProbe {s t : State} {k : ReqKind} {r : Request} (h : s.takeProbe k = some (r, t)) :
    Keeps none none s t := by
  unfold State.takeProbe at h
  split at h
  · simp at h
  · cases h
    exact .setHand none s _

/-- A slot's record replaced, its count left: the counts stand, and a slot that a sweep names stays DEFINED. -/
theorem Keeps.setRecord (s : State) (k : Fin 64) (r : Option ProbeRecord)
    (named : ReferenceLaw s → r = none → (s.slot k).refs = 0) :
    Keeps none none s (s.setSlot k { s.slot k with record := r }) where
  link := id
  refs h := {
    counted := fun j => by
      have same : (s.setSlot k { s.slot k with record := r }).nameCount j = s.nameCount j := rfl
      rw [same]
      by_cases e : j = k
      · subst e; rw [s.setSlot_slot]; exact h.counted j
      · rw [s.setSlot_slot_ne k _ j e]; exact h.counted j
    defined := fun i j hj => by
      by_cases e : j = k
      · subst e
        rw [s.setSlot_slot]
        cases hr : r with
        | some _ => rfl
        | none =>
          have zero := (h.counted j).symm.trans (named h hr)
          have := List.countP_eq_zero.1 zero i (List.mem_finRange i)
          exact absurd (List.contains_iff_mem.2 hj) this
      · rw [s.setSlot_slot_ne k _ j e]; exact h.defined i j hj
    distinct := h.distinct
    empty := h.empty }
  sweeps := id
  outstanding _ _ _ h := h
  waiters h := h.sublist (.refl _) (fun _ _ => id)
  ports := id
  conv := id
  watch h := h.congr rfl rfl

theorem Keeps.storeRecord (s : State) (k : Fin 64) (r : Option ProbeRecord)
    (named : r = none → (s.slot k).refs = 0) : Keeps none none s (s.storeRecord k r) := by
  have slot : s.takeInbox.slot k = s.slot k := by simp only [State.slot, State.takeInbox_slots]
  exact ((Keeps.takeInbox none s).trans (.setRecord _ k r fun _ hr => slot ▸ named hr)).trans (.resetWatch none _ k)

theorem exec_probeSet_keeps (s : State) : AnswersKeeping s (exec .probeSet s) := by
  simp only [exec, execProbeSet]
  split
  · exact .same s
  · rename_i r t ht
    have taken := Keeps.takeProbe ht
    split
    · split
      · exact .next (taken.trans (.reply none _ _ _ _))
      · exact .next ((taken.trans (.storeRecord _ _ _ fun e => absurd e (Option.some_ne_none _))).trans (.reply none _ _ _ _))
    · exact .next (taken.trans (.reply none _ _ _ _))

theorem exec_probeClear_keeps (s : State) : AnswersKeeping s (exec .probeClear s) := by
  simp only [exec, execProbeClear]
  split
  · exact .same s
  · rename_i r t ht
    have taken := Keeps.takeProbe ht
    split
    · exact .next (taken.trans (.reply none _ _ _ _))
    · split
      · exact .next (taken.trans (.reply none _ _ _ _))
      · rename_i unnamed
        split
        · exact .next (taken.trans (.reply none _ _ _ _))
        · exact .next ((taken.trans (.storeRecord _ _ _ fun _ => by omega)).trans (.reply none _ _ _ _))

theorem exec_probeGet_keeps (s : State) : AnswersKeeping s (exec .probeGet s) := by
  simp only [exec, execProbeGet]
  split
  · exact .same s
  · rename_i r t ht
    split <;> exact .next ((Keeps.takeProbe ht).trans (.reply none _ _ _ _))

/-! ### Watch Unit commands -/

theorem Keeps.takeWatch {s t : State} {k : ReqKind} {r : Request} (h : s.takeWatch k = some (r, t)) :
    Keeps none none s t := by
  unfold State.takeWatch at h
  split at h
  · split at h
    · cases h
      exact .setInbox none s _
    · simp at h
  · simp at h

theorem exec_watchGet_keeps (s : State) : AnswersKeeping s (exec .watchGet s) := by
  simp only [exec, execWatchGet]
  split
  · exact .same s
  · exact .next ((Keeps.takeWatch (by assumption)).trans (.watchGet none _ _))

theorem exec_watchReset_keeps (s : State) : AnswersKeeping s (exec .watchReset s) := by
  simp only [exec, execWatchReset]
  split
  · exact .same s
  · exact .next ((Keeps.takeWatch (by assumption)).trans (.watchReset none _ _))

theorem exec_completionCopy_keeps (s : State) : AnswersKeeping s (exec .completionCopy s) := by
  simp only [exec, execCompletionCopy]
  split
  · exact .next ((Keeps.setInbox none s _).trans (.takeCopy none _ _))
  · exact .same s

end Sys2Proof.Machine
end

section
/-! PROOFS. The Sweep Engine's passes keep every law: issues and withdrawals as they move the tally, then triggers, the end
of a pass and the handling of completions (Chapters 2 and 3; R46, R48, R59, R60, R94). -/

namespace Sys2Proof.Machine

/-! ### Sums and counts over positions -/

/-- The members that satisfy `p`, counted one by one. -/
theorem sum_map_ite_eq_countP {α : Type} (p : α → Bool) (l : List α) :
    (l.map (fun a => if p a then 1 else 0)).sum = l.countP p := by
  induction l with
  | nil => rfl
  | cons a l ih => rw [List.map_cons, List.sum_cons, ih, List.countP_cons, Nat.add_comm]

theorem SweepDef.mem_positions (d : SweepDef) (k : Fin 16) : k ∈ d.positions ↔ k.val < d.list.length := by
  simp [SweepDef.positions]

theorem SweepDef.nodup_positions (d : SweepDef) : d.positions.Nodup := (List.nodup_finRange 16).filter _

/-! ### Issues and the tally (R48) -/

/-- An issue adds the issued request to the tally. -/
theorem State.tally_setArb_issue (s : State) (r : Resource) (q : ProbeRequest) (m : ProbeRequest → Bool) :
    (s.setArb r { s.arb r with issues := (s.arb r).issues ++ [q] }).tally m = s.tally m + if m q then 1 else 0 := by
  have arb : ∀ a : Arbiter, Arbiter.tally m { a with issues := a.issues ++ [q] } = a.tally m + if m q then 1 else 0 := by
    intro a
    simp only [Arbiter.tally, List.countP_append, List.countP_singleton]
    omega
  cases r with
  | tw p =>
    have moved := s.tally_setPort p { s.port p with
      arb := { (s.port p).arb with issues := (s.port p).arb.issues ++ [q] } } m
    simp only [Port.tally, arb] at moved
    simp only [State.setArb, State.arb]
    omega
  | analog =>
    have moved := s.tally_setConv { s.conv with arb := { s.conv.arb with issues := s.conv.arb.issues ++ [q] } } m
    simp only [Converter.tally, arb] at moved
    simp only [State.setArb, State.arb]
    omega

section
variable (s : State) (i : SweepNo) (d : SweepDef)

/-- An issue for one sweep adds nothing for another. -/
theorem State.issue_tally_other (k : Fin 16) (j : SweepNo) (h : j ≠ i) (k' : Fin 16) :
    (s.issue i d k).tally (·.isFor j k') = s.tally (·.isFor j k') := by
  unfold State.issue
  split
  · rfl
  · split
    · rfl
    · simp only [State.tally_setArb_issue, ProbeRequest.isFor, beq_false_of_ne h.symm, Bool.false_and]
      rfl

/-- An issue for a position whose slot is DEFINED adds one request for it. -/
theorem State.issue_tally (k : Fin 16) {slot : Fin 64} (hl : d.list[k.val]? = some slot)
    (hr : (s.slot slot).record.isSome = true) (k' : Fin 16) :
    (s.issue i d k).tally (·.isFor i k') = s.tally (·.isFor i k') + if k = k' then 1 else 0 := by
  obtain ⟨r, hr⟩ := Option.isSome_iff_exists.1 hr
  simp only [State.issue, hl, hr, State.tally_setArb_issue, ProbeRequest.isFor, beq_self_eq_true, Bool.true_and,
    beq_iff_eq]

theorem State.issueAll_tally_other (l : List (Fin 16)) (j : SweepNo) (h : j ≠ i) (k : Fin 16) :
    (s.issueAll i d l).tally (·.isFor j k) = s.tally (·.isFor j k) := by
  induction l generalizing s with
  | nil => rfl
  | cons a l ih => exact (ih (s.issue i d a)).trans (s.issue_tally_other i d a j h k)

/-- Requests issued for several positions of a list of DEFINED slots are one more for each. -/
theorem State.issueAll_tally (l : List (Fin 16)) (inList : ∀ k, k ∈ l → k.val < d.list.length)
    (defined : ∀ slot, slot ∈ d.list → (s.slot slot).record.isSome = true) (k : Fin 16) :
    (s.issueAll i d l).tally (·.isFor i k) = s.tally (·.isFor i k) + l.count k := by
  induction l generalizing s with
  | nil => rfl
  | cons a l ih =>
    have ha := List.getElem?_eq_getElem (inList a List.mem_cons_self)
    have slot : ∀ j, (s.issue i d a).slot j = s.slot j := fun j => by simp only [State.slot, State.issue_slots]
    have rest := ih (s.issue i d a) (fun k hk => inList k (List.mem_cons_of_mem _ hk))
      (fun j hj => slot j ▸ defined j hj)
    have first := s.issue_tally i d a ha (defined _ (List.getElem_mem _)) k
    rw [show s.issueAll i d (a :: l) = (s.issue i d a).issueAll i d l from rfl, rest, first, List.count_cons]
    simp only [beq_iff_eq]
    omega

theorem State.issued_port (q : Resource → List ProbeRequest) (p : PortNo) : (s.issued q).port p = { s.port p with
    arb := { (s.port p).arb with issues := (s.port p).arb.issues ++ q (.tw p) } } := by
  simp [State.issued, State.port]

/-- The laws of the ports and of the converter read nothing of what is issued. -/
theorem State.issueAll_ports (l : List (Fin 16)) (h : ∀ p, PortLaw (s.port p)) (p : PortNo) :
    PortLaw ((s.issueAll i d l).port p) := by
  rw [State.issueAll_eq, State.issued_port]
  exact (h p).congr rfl rfl rfl rfl rfl fun _ => rfl

theorem State.issueAll_conv (l : List (Fin 16)) (h : ConverterLaw s.conv) : ConverterLaw (s.issueAll i d l).conv := by
  rw [State.issueAll_eq]
  exact h.congr rfl rfl rfl rfl

end

/-! ### Withdrawals and the tally (R94) -/

theorem keepOthers_tally_other (i j : SweepNo) (h : j ≠ i) (k : Fin 16) (l : List ProbeEntry) :
    (keepOthers i l).countP (fun e => e.req.isFor j k) = l.countP (fun e => e.req.isFor j k) := by
  rw [keepOthers, List.countP_filter]
  refine List.countP_congr fun e _ => ?_
  simp only [ProbeRequest.isFor, ProbeEntry.ofSweep, Bool.and_eq_true, beq_iff_eq, Bool.not_eq_true',
    beq_eq_false_iff_ne]
  exact ⟨fun e => e.1, fun e => ⟨e, fun c => h (e.1.symm.trans c)⟩⟩

/-- What a withdrawal removes for a position, and what it leaves, is what was there. -/
theorem keepOthers_tally (i : SweepNo) (k : Fin 16) (l : List ProbeEntry) :
    (keepOthers i l).countP (fun e => e.req.isFor i k) + (positionsOf i l).count k
      = l.countP (fun e => e.req.isFor i k) := by
  induction l with
  | nil => rfl
  | cons e l ih =>
    simp only [keepOthers, positionsOf, List.filter_cons, ProbeEntry.ofSweep, List.countP_cons, ProbeRequest.isFor] at ih ⊢
    by_cases hs : e.req.sweep = i
    · simp only [hs, beq_self_eq_true, Bool.not_true, Bool.false_eq_true, if_false, if_true, List.map_cons,
        List.count_cons, Bool.true_and]
      omega
    · simp only [beq_false_of_ne hs, Bool.not_false, if_true, Bool.false_eq_true, if_false, List.countP_cons,
        Bool.false_and]
      omega

section
variable (i : SweepNo)

theorem Port.withdraw_law {q : Port} (h : PortLaw q) (now : Time) : PortLaw (q.withdraw now i) := by
  have t := q.takeIssues_law h now
  exact {
    fits := t.fits
    blocked := fun hp => by
      obtain ⟨pending, transfers⟩ := t.blocked hp
      exact ⟨by simp only [Port.withdraw, pending]; rfl, transfers⟩
    room := t.room, held := t.held, stretch := t.stretch }

theorem settling_countP (l : List Settling) (m : ProbeRequest → Bool) :
    l.countP (fun x => m x.entry.req) = (l.map Settling.entry).countP (fun e => m e.req) := by
  rw [List.countP_map]
  rfl

/-- What a withdrawal keeps of a settling set. -/
theorem settling_filter (l : List Settling) :
    (l.filter (fun x => !x.entry.ofSweep i)).map Settling.entry = keepOthers i (l.map Settling.entry) := by
  rw [keepOthers, List.filter_map]
  rfl

theorem Port.withdraw_tally_other (q : Port) (now : Time) (j : SweepNo) (h : j ≠ i) (k : Fin 16) :
    (q.withdraw now i).tally (·.isFor j k) = q.tally (·.isFor j k) := by
  rw [← q.takeIssues_tally now]
  simp only [Port.tally, Port.withdraw, Arbiter.tally, keepOthers_tally_other i j h,
    settling_countP _ (fun r => ProbeRequest.isFor j k r), settling_filter]

theorem Port.withdraw_tally (q : Port) (now : Time) (k : Fin 16) :
    (q.withdraw now i).tally (·.isFor i k) + (q.withdrawn now i).count k = q.tally (·.isFor i k) := by
  rw [← q.takeIssues_tally now]
  have pending := keepOthers_tally i k (q.takeIssues now).arb.pending
  have settling := keepOthers_tally i k ((q.takeIssues now).settling.map Settling.entry)
  simp only [Port.tally, Port.withdraw, Port.withdrawn, Arbiter.tally, List.count_append,
    settling_countP _ (fun r => ProbeRequest.isFor i k r), settling_filter]
  omega

theorem Converter.withdraw_tally_other (c : Converter) (j : SweepNo) (h : j ≠ i) (k : Fin 16) :
    (c.withdraw i).tally (·.isFor j k) = c.tally (·.isFor j k) := by
  rw [← c.takeIssues_tally]
  simp only [Converter.tally, Converter.withdraw, Arbiter.tally, keepOthers_tally_other i j h]

theorem Converter.withdraw_tally (c : Converter) (k : Fin 16) :
    (c.withdraw i).tally (·.isFor i k) + (c.withdrawn i).count k = c.tally (·.isFor i k) := by
  rw [← c.takeIssues_tally]
  have pending := keepOthers_tally i k c.takeIssues.arb.pending
  simp only [Converter.tally, Converter.withdraw, Converter.withdrawn, Arbiter.tally]
  omega

@[simp] theorem State.withdraw_port (s : State) (p : PortNo) :
    (s.withdraw i).port p = (s.port p).withdraw s.time i := by
  simp [State.withdraw, State.port]

@[simp] theorem State.withdraw_conv (s : State) : (s.withdraw i).conv = s.conv.withdraw i := rfl

theorem State.withdraw_tally_other (s : State) (j : SweepNo) (h : j ≠ i) (k : Fin 16) :
    (s.withdraw i).tally (·.isFor j k) = s.tally (·.isFor j k) := by
  simp only [State.tally, State.withdraw_port, State.withdraw_conv, Port.withdraw_tally_other i _ _ j h,
    Converter.withdraw_tally_other i _ j h]

theorem State.withdraw_tally (s : State) (k : Fin 16) :
    (s.withdraw i).tally (·.isFor i k) + (s.withdrawn i).count k = s.tally (·.isFor i k) := by
  have p0 := (s.port 0).withdraw_tally i s.time k
  have p1 := (s.port 1).withdraw_tally i s.time k
  have p2 := (s.port 2).withdraw_tally i s.time k
  have c := s.conv.withdraw_tally i k
  simp only [State.tally, State.withdraw_port, State.withdraw_conv, State.withdrawn, List.count_append]
  omega

theorem State.withdraw_ports (s : State) (h : ∀ p, PortLaw (s.port p)) (p : PortNo) : PortLaw ((s.withdraw i).port p) := by
  rw [State.withdraw_port]
  exact Port.withdraw_law i (h p) _

theorem Converter.takeIssues_law {c : Converter} (h : ConverterLaw c) : ConverterLaw c.takeIssues :=
  h.congr rfl rfl rfl rfl

theorem State.withdraw_converterLaw (s : State) (h : ConverterLaw s.conv) : ConverterLaw (s.withdraw i).conv :=
  (Converter.takeIssues_law h).congr rfl rfl rfl rfl

end

/-! ### One sweep replaced -/

theorem State.setSweep_setSweep (s : State) (i : SweepNo) (w v : Sweep) : (s.setSweep i w).setSweep i v = s.setSweep i v := by
  simp [State.setSweep]

theorem State.tally_setSweep (s : State) (i : SweepNo) (w : Sweep) (m : ProbeRequest → Bool) :
    (s.setSweep i w).tally m = s.tally m := rfl

/-- A sweep replaced by one of the same definition whose state its requests still fit. -/
theorem Keeps.setSweep {x : Option ProbeRequest} (s : State) (i : SweepNo) (w : Sweep) (defn : w.defn = (s.sweep i).defn)
    (empty : w.state = .empty ↔ (s.sweep i).state = .empty) (form : SweepForm (s.sweep i) → SweepForm w)
    (waits : (s.sweep i).state.triggerable = true → w.state.triggerable = true)
    (fits : ∀ f, SweepForm (s.sweep i) → (s.sweep i).Fits f → w.Fits f) : Keeps x x s (s.setSweep i w) := by
  refine .of_sweep i id (·.congr rfl rfl) rfl (fun j h => s.setSweep_sweep_ne i w j h) ?_ ?_ ?_ ?_ id id
    (fun _ _ _ => rfl) ?_
  · rw [s.setSweep_sweep]; exact defn
  · rw [s.setSweep_sweep]; exact empty
  · rw [s.setSweep_sweep]; exact form
  · intro h
    refine h.sublist (.refl _) fun v _ on => ?_
    by_cases e : v.sweep = i
    · rw [e] at on ⊢; rw [s.setSweep_sweep]; exact waits on
    · rw [s.setSweep_sweep_ne i w _ e]; exact on
  · rw [s.setSweep_sweep]; exact fun _ hf => fits _ hf

/-- The waiters on a sweep that leaves ARMED and RUNNING leave with it. -/
theorem WaiterLaw.leaveNotice {s t : State} {i : SweepNo} (h : WaiterLaw s) (waiters : t.waiters.Sublist s.waiters)
    (others : ∀ j, j ≠ i → t.sweep j = s.sweep j) : WaiterLaw (t.leaveNotice i) := by
  refine h.sublist ?_ fun v hv on => ?_
  · exact List.filter_sublist.trans waiters
  · have off : v.sweep ≠ i := by
      have := (List.mem_filter.1 hv).2
      simpa using this
    simp only [State.leaveNotice, State.answerWaiters_sweep, others _ off]
    exact on

/-- A sweep that leaves ARMED or RUNNING, with the leave notice (R37). -/
theorem Keeps.setSweep_leaveNotice {x : Option ProbeRequest} (s : State) (i : SweepNo) (w : Sweep)
    (defn : w.defn = (s.sweep i).defn) (empty : w.state = .empty ↔ (s.sweep i).state = .empty)
    (form : SweepForm (s.sweep i) → SweepForm w)
    (fits : ∀ f, SweepForm (s.sweep i) → (s.sweep i).Fits f → w.Fits f) :
    Keeps x x s ((s.setSweep i w).leaveNotice i) := by
  have sweep : ((s.setSweep i w).leaveNotice i).sweep i = w := by
    simp only [State.leaveNotice, State.answerWaiters_sweep, State.setSweep_sweep]
  have others : ∀ j, j ≠ i → ((s.setSweep i w).leaveNotice i).sweep j = s.sweep j := fun j h => by
    simp only [State.leaveNotice, State.answerWaiters_sweep, s.setSweep_sweep_ne i w j h]
  refine .of_sweep i (fun h => ?_) (·.congr rfl rfl) rfl others ?_ ?_ ?_ ?_ id id
    (fun _ _ _ => rfl) ?_
  · exact (Keeps.answerWaiters none (s.setSweep i w) _ _ _).link h
  · rw [sweep]; exact defn
  · rw [sweep]; exact empty
  · rw [sweep]; exact form
  · exact fun h => h.leaveNotice (.refl _) fun j hj => s.setSweep_sweep_ne i w j hj
  · rw [sweep]; exact fun _ hf => fits _ hf

/-- What R37 does to a sweep just replaced. -/
theorem State.setSweep_leave (s : State) (i : SweepNo) (w : Sweep) :
    (s.setSweep i w).leave i = (s.setSweep i { w with timer := none, armExpiry := false }).leaveNotice i := by
  simp only [State.leave, State.setSweep_sweep, State.setSweep_setSweep]

/-! ### Forms of a sweep -/

/-- A sweep that is ARMED becomes IDLE, without its timer. -/
theorem SweepForm.goIdle {w : Sweep} (h : SweepForm w) (hs : w.state = .armed) (n : Nat) (hn : n ≤ 65535) :
    SweepForm { w with state := .idle, missed := n, timer := none, armExpiry := false } where
  empty := by have := h.empty; simp only [hs] at this; simpa using this
  running := by have := h.running; simp only [hs] at this; simpa using this
  short := h.short
  positions := h.positions
  timer := by simp [SweepState.triggerable]
  remnant := by have := h.remnant; simp only [hs] at this; simpa using this
  held := by have := h.held; simp only [hs] at this; simpa using this
  missed := hn

theorem Sweep.fits_idle_of_armed {w v : Sweep} {f : Fin 16 → Nat} (hw : w.state = .armed) (hv : v.state = .idle)
    (h : w.Fits f) : v.Fits f :=
  (Sweep.fits_of_quiet (.inr (.inl hv)) f).2 ((Sweep.fits_of_quiet (.inr (.inr hw)) f).1 h)

/-- A pass of `d` begins: every position PENDING, or DEFERRED. -/
theorem SweepForm.beginPass {w : Sweep} (h : SweepForm w) {d : SweepDef} (hd : w.defn = some d)
    (hs : w.state.triggerable = true) (n : Word) (start : Time) (l : List PosState) (hl : l.length = d.list.length) :
    SweepForm { w with started := n, state := .running, run := some { start := start, positions := l } } where
  empty := by simp [hd]
  short := h.short
  running := by simp
  positions := by
    intro e r he hr
    cases hr
    rw [hd] at he
    cases he
    exact hl
  timer := by rw [h.timer, hs]; rfl
  remnant := by
    have notStopping : ¬ w.state = .stopping := fun e => by simp [e, SweepState.triggerable] at hs
    have := (not_congr h.remnant).1 notStopping
    simpa using this
  held := fun hh => by simp [h.held hh, SweepState.triggerable] at hs
  missed := h.missed

theorem SweepState.triggerable_iff (w : SweepState) : w.triggerable = true ↔ w = .armed ∨ w = .running := by
  cases w <;> simp [SweepState.triggerable]

/-! ### The start of a pass (R47) and its abandonment (R59) -/

section
variable (s : State) (i : SweepNo) (d : SweepDef)

theorem State.issueAll_sweep (l : List (Fin 16)) (j : SweepNo) : (s.issueAll i d l).sweep j = s.sweep j := by
  simp only [State.sweep, State.issueAll_sweeps]

theorem State.withdraw_sweep (j : SweepNo) : (s.withdraw i).sweep j = s.sweep j := rfl

theorem State.startPass_sweep : (s.startPass i d).sweep i = { s.sweep i with
    started := (s.sweep i).started + 1, state := .running
    run := some { start := s.time, positions := List.replicate d.list.length .pending } } := by
  simp only [State.startPass, State.issueAll_sweep, State.beginPass, State.setPages_sweep, State.setSweep_sweep]

theorem State.startPass_sweep_ne (j : SweepNo) (h : j ≠ i) : (s.startPass i d).sweep j = s.sweep j := by
  simp only [State.startPass, State.issueAll_sweep, State.beginPass, State.setPages_sweep, s.setSweep_sweep_ne i _ j h]

theorem State.abandonPass_sweep : (s.abandonPass i d).sweep i = { s.sweep i with
    started := (s.sweep i).started + 1, state := .running
    run := some { start := s.time
                  positions := d.positions.map (afterAbandon (s.sweep i).positions (s.withdrawn i)) } } := by
  simp only [State.abandonPass, State.issueAll_sweep, State.setSweep_sweep, State.withdraw_sweep, State.beginPass,
    State.setPages_sweep]
  rfl

theorem State.abandonPass_sweep_ne (j : SweepNo) (h : j ≠ i) : (s.abandonPass i d).sweep j = s.sweep j := by
  simp only [State.abandonPass, State.issueAll_sweep, State.beginPass, State.withdraw_sweep, State.setPages_sweep,
    State.setSweep_sweep_ne _ i _ j h]

end

/-- The slots that the list of a defined sweep names are DEFINED (R7). -/
theorem ReferenceLaw.defined_of_defn {s : State} (h : ReferenceLaw s) {i : SweepNo} {d : SweepDef}
    (hd : (s.sweep i).defn = some d) (slot : Fin 64) (hs : slot ∈ d.list) : (s.slot slot).record.isSome = true :=
  h.defined i slot (by simpa only [Sweep.list, hd] using hs)

/-- A position of a new pass is owed one request exactly when it is in the list. -/
theorem Sweep.owed_replicate {w : Sweep} {n : Nat} {start : Time}
    (hr : w.run = some { start := start, positions := List.replicate n .pending }) (k : Fin 16) :
    w.owed k = if k.val < n then 1 else 0 := by
  simp only [Sweep.owed, Sweep.positions, hr, List.getElem?_replicate]
  split <;> simp_all

theorem Keeps.startPass {s : State} {i : SweepNo} {d : SweepDef} (armed : (s.sweep i).state = .armed)
    (hd : (s.sweep i).defn = some d) : Keeps none none s (s.startPass i d) := by
  have own := s.startPass_sweep i d
  refine .of_sweep i (by simp) (fun h => h.congr (by simp) (by simp)) (by simp) (s.startPass_sweep_ne i d)
    (by rw [own]) (by rw [own, armed]; simp) ?_ ?_ ?_ ?_ ?_ ?_
  · rw [own]
    exact fun h => h.beginPass hd (by simp [armed, SweepState.triggerable]) _ _ _ (by simp)
  · refine fun h => h.sublist (by simp) fun v _ on => ?_
    by_cases e : v.sweep = i
    · rw [e, own]; rfl
    · rw [s.startPass_sweep_ne i d _ e]; exact on
  · exact fun h => State.issueAll_ports (s.beginPass i d) i d _ h
  · exact fun h => State.issueAll_conv (s.beginPass i d) i d _ h
  · intro j hj k
    rw [State.startPass, State.issueAll_tally_other _ i d _ j hj]
    rfl
  · intro refs _ before
    rw [Sweep.fits_of_quiet (.inr (.inr armed))] at before
    rw [Sweep.fits_of_running (by rw [own])]
    intro k
    have none := before k
    rw [State.startPass, State.issueAll_tally (s.beginPass i d) i d _ (fun k => (d.mem_positions k).1)
      (fun slot hs => by
        have : (s.beginPass i d).slot slot = s.slot slot := rfl
        rw [this]; exact refs.defined_of_defn hd slot hs),
      d.nodup_positions.count, ← State.startPass, Sweep.owed_replicate (by rw [own])]
    simp only [d.mem_positions, inHand_none] at none ⊢
    have same : (s.beginPass i d).tally (·.isFor i k) = s.tally (·.isFor i k) := rfl
    rw [same]
    omega


/-- The positions of a list of at most 16 places are the first places. -/
theorem SweepDef.positions_eq_take {d : SweepDef} (short : d.list.length ≤ 16) :
    d.positions = (List.finRange 16).take d.list.length := by
  have first : ∀ n : Fin 17,
      (List.finRange 16).filter (fun k => decide (k.val < n.val)) = (List.finRange 16).take n.val := by decide
  exact first ⟨d.list.length, by omega⟩

theorem SweepDef.length_positions {d : SweepDef} (short : d.list.length ≤ 16) : d.positions.length = d.list.length := by
  rw [SweepDef.positions_eq_take short, List.length_take, List.length_finRange]
  omega

/-- What is said of each position of a list, read at one position. -/
theorem getElem?_map_positions {α : Type} {d : SweepDef} (short : d.list.length ≤ 16) (f : Fin 16 → α) (k : Fin 16) :
    (d.positions.map f)[k.val]? = if k.val < d.list.length then some (f k) else none := by
  rw [SweepDef.positions_eq_take short, List.map_take, List.getElem?_take]
  split <;> simp

/-- A request is owed for a position exactly when its state stands and is not COMPLETE. -/
def owedBy (l : List PosState) (k : Fin 16) : Nat :=
  match l[k.val]? with
  | some .pending | some .deferred => 1
  | some .complete | none => 0

theorem Sweep.owed_eq_owedBy (w : Sweep) : w.owed = owedBy w.positions := rfl

theorem owedBy_eq_ite (l : List PosState) (k : Fin 16) :
    owedBy l k = if k.val < l.length ∧ l[k.val]? ≠ some .complete then 1 else 0 := by
  unfold owedBy
  by_cases hk : k.val < l.length
  · have e := List.getElem?_eq_getElem hk
    rw [e]
    cases l[k.val] <;> simp [hk]
  · rw [List.getElem?_eq_none (by omega)]
    simp [hk]

theorem owedBy_le_one (l : List PosState) (k : Fin 16) : owedBy l k ≤ 1 := by
  rw [owedBy_eq_ite]
  split <;> omega

theorem stillOut_iff (old : List PosState) (removed : List (Fin 16)) (k : Fin 16) :
    stillOut old removed k = true ↔ old[k.val]? ≠ some .complete ∧ k ∉ removed := by
  simp [stillOut]

/-- After a withdrawal, a request is left for the positions of the list that are still out, and for no other: the request of
a position that was owed one stands unless the withdrawal removed it. -/
theorem State.withdraw_tally_of_owed {s : State} {i : SweepNo} {d : SweepDef} {old : List PosState}
    (hl : old.length = d.list.length) (owed : ∀ k, s.tally (·.isFor i k) = owedBy old k) (k : Fin 16) :
    (s.withdraw i).tally (·.isFor i k)
      = if k ∈ d.positions ∧ stillOut old (s.withdrawn i) k = true then 1 else 0 := by
  have split := s.withdraw_tally i k
  rw [owed k, owedBy_eq_ite, hl] at split
  simp only [d.mem_positions, stillOut_iff]
  by_cases removed : k ∈ s.withdrawn i
  · have := List.count_pos_iff.2 removed
    have : ¬(k.val < d.list.length ∧ old[k.val]? ≠ some .complete ∧ k ∉ s.withdrawn i) := fun h => h.2.2 removed
    rw [if_neg this]
    split_ifs at split <;> omega
  · rw [List.count_eq_zero.2 removed] at split
    simp only [removed, not_false_eq_true, and_true]
    omega

/-- After an abandonment each position of the list is owed one request, the old or the new. -/
theorem Sweep.owed_afterAbandon {w : Sweep} {d : SweepDef} {start : Time} {old : List PosState}
    {removed : List (Fin 16)} (short : d.list.length ≤ 16)
    (hr : w.run = some { start := start, positions := d.positions.map (afterAbandon old removed) }) (k : Fin 16) :
    w.owed k = if k.val < d.list.length then 1 else 0 := by
  rw [w.owed_eq_owedBy, owedBy]
  simp only [Sweep.positions, hr]
  rw [getElem?_map_positions short]
  by_cases hk : k.val < d.list.length
  · simp only [hk, if_true, afterAbandon]
    cases stillOut old removed k <;> rfl
  · simp only [hk, if_false]

theorem Keeps.abandonPass {s : State} {i : SweepNo} {d : SweepDef} (running : (s.sweep i).state = .running)
    (hd : (s.sweep i).defn = some d) : Keeps none none s (s.abandonPass i d) := by
  have own := s.abandonPass_sweep i d
  -- The state in which the new requests are issued: its sweeps aside, it is the withdrawal's.
  obtain ⟨u, hu, ports, conv, slots⟩ : ∃ u : State,
      s.abandonPass i d = u.issueAll i d (d.positions.filter fun k => !stillOut (s.sweep i).positions (s.withdrawn i) k)
      ∧ u.ports = (s.withdraw i).ports ∧ u.conv = (s.withdraw i).conv ∧ u.slots = s.slots := ⟨_, rfl, rfl, rfl, rfl⟩
  have port : ∀ p, u.port p = (s.withdraw i).port p := fun p => by simp only [State.port, ports]
  refine .of_sweep i (by simp) (fun h => h.congr (by simp) (by simp)) (by simp) (s.abandonPass_sweep_ne i d)
    (by rw [own]) (by rw [own, running]) ?_ ?_ ?_ ?_ ?_ ?_
  · rw [own]
    exact fun h => h.beginPass hd (by simp [running, SweepState.triggerable]) _ _ _
      (by rw [List.length_map, SweepDef.length_positions (h.short d hd)])
  · refine fun h => h.sublist (by simp) fun v _ on => ?_
    by_cases e : v.sweep = i
    · rw [e, own]; rfl
    · rw [s.abandonPass_sweep_ne i d _ e]; exact on
  · intro h
    rw [hu]
    exact u.issueAll_ports i d _ fun p => by rw [port]; exact s.withdraw_ports i h p
  · intro h
    rw [hu]
    exact u.issueAll_conv i d _ (conv ▸ s.withdraw_converterLaw i h)
  · intro j hj k
    rw [hu, u.issueAll_tally_other i d _ j hj, State.tally_congr ports conv, s.withdraw_tally_other i j hj]
  · intro refs form before
    rw [Sweep.fits_of_running running] at before
    rw [Sweep.fits_of_running (by rw [own])]
    obtain ⟨r, hr⟩ := Option.isSome_iff_exists.1 (form.running.1 running)
    have old : (s.sweep i).positions.length = d.list.length := by
      simpa only [Sweep.positions, hr] using form.positions d r hd hr
    have owed : ∀ k, s.tally (·.isFor i k) = owedBy (s.sweep i).positions k := fun k => by
      simpa only [inHand_none, Nat.add_zero, Sweep.owed_eq_owedBy] using before k
    intro k
    have left := s.withdraw_tally_of_owed old owed k
    have defined : ∀ slot, slot ∈ d.list → (u.slot slot).record.isSome = true := fun slot hs => by
      simpa only [State.slot, slots] using refs.defined_of_defn hd slot hs
    rw [hu, u.issueAll_tally i d _ (fun k hk => (d.mem_positions k).1 (List.mem_filter.1 hk).1) defined,
      (d.nodup_positions.filter _).count, State.tally_congr ports conv, left, ← hu,
      Sweep.owed_afterAbandon (form.short d hd) (by rw [own])]
    simp only [List.mem_filter, d.mem_positions, inHand_none]
    cases stillOut (s.sweep i).positions (s.withdrawn i) k <;> simp

/-! ### Triggers (section 2.6) and the period timer -/

theorem Keeps.countMissed {x : Option ProbeRequest} (s : State) (i : SweepNo) : Keeps x x s (s.countMissed i) :=
  .setSweep s i _ rfl Iff.rfl
    (fun h => { h with missed := satAdd_le _ _ _ }) id (fun _ _ hf => hf.congr rfl rfl rfl)

theorem Keeps.trigger (s : State) (i : SweepNo) : Keeps none none s (s.trigger i) := by
  rcases s.trigger_cases i with e | ⟨d, hs, hd, e⟩ | ⟨d, hs, hd, _, e⟩ | ⟨d, _, _, e⟩ | ⟨d, hs, hd, e⟩ <;> rw [e]
  · exact .refl none s
  · exact .startPass hs hd
  · exact .abandonPass hs hd
  · exact .countMissed s i
  · rw [State.countMissed, State.setSweep_sweep, State.setSweep_setSweep, State.setSweep_leave]
    exact .setSweep_leaveNotice s i _ rfl (by simp [hs]) (fun h => h.goIdle hs _ (satAdd_le _ _ _))
      (fun f _ hf => Sweep.fits_idle_of_armed hs rfl hf)

/-- A running period timer set on stays that of an ARMED or RUNNING sweep of source PERIOD. -/
theorem Keeps.periodExpires (s : State) (i : SweepNo) (t : Time) (ht : (s.sweep i).timer = some t) :
    Keeps none none s (s.periodExpires i t) := by
  unfold State.periodExpires
  refine Keeps.trans (.setSweep s i _ ?_ ?_ (fun h => ?_) ?_ ?_) (.trigger _ i)
  · rfl
  · rfl
  rotate_left
  · exact id
  · exact fun _ _ hf => hf.congr rfl rfl rfl
  have before := h.timer
  rw [ht] at before
  have periodic : isPeriodic (s.sweep i).defn = true ∧ (s.sweep i).state.triggerable = true := by
    simpa using before.symm
  refine { h with timer := ?_ }
  have source := periodic.1
  simp only [periodic]
  cases hd : (s.sweep i).defn with
  | none => simp [hd, isPeriodic] at source
  | some d =>
    cases hsrc : d.source with
    | period p ph => simp [hsrc]
    | host => simp [hd, hsrc, isPeriodic] at source
    | chain j => simp [hd, hsrc, isPeriodic] at source

theorem exec_periodExpiry_keeps (i : SweepNo) (s : State) : AnswersKeeping s (exec (.periodExpiry i) s) := by
  simp only [exec, execPeriodExpiry]
  split
  · exact .same s
  · split
    · exact .next (.periodExpires s i _ (by assumption))
    · exact .same s

theorem Keeps.takeArmExpiry (s : State) (i : SweepNo) : Keeps none none s (s.takeArmExpiry i) := by
  unfold State.takeArmExpiry
  split
  · exact .periodExpires s i _ (by assumption)
  · exact .refl none s

/-! ### The end of a pass by a stop or a halt (R39, R55) -/

theorem State.endPass_eq (s : State) (i : SweepNo) (old : List PosState) (d : SweepDef) (n : Nat)
    (hn : n = d.positions.countP (stillOut old (s.withdrawn i))) :
    s.endPass i old d = (((s.setPages i (s.pagesOf i).discard).withdraw i).setSweep i { s.sweep i with
      run := none, remnant := n, state := if n = 0 then .idle else .stopping
      timer := none, armExpiry := false }).leaveNotice i := by
  subst hn
  simp only [State.endPass, State.setSweep_leave]
  rfl

/-- A RUNNING sweep that ends with `n` remnants. -/
theorem SweepForm.endPass {w : Sweep} (h : SweepForm w) (hs : w.state = .running) (n : Nat) :
    SweepForm { w with run := none, remnant := n, state := if n = 0 then .idle else .stopping
                       timer := none, armExpiry := false } where
  empty := by have := h.empty; simp only [hs] at this; split <;> simpa using this
  short := h.short
  running := by split <;> simp
  positions := by simp
  timer := by split <;> simp [SweepState.triggerable]
  remnant := by split <;> simp_all [Nat.pos_iff_ne_zero]
  held := by have := h.held; simp only [hs] at this; simp_all
  missed := h.missed

/-- The end of a pass, of which the requests owed by `old` are outstanding: those the withdrawal leaves are the remnants. -/
theorem Keeps.endPass {x : Option ProbeRequest} {s : State} {i : SweepNo} {d : SweepDef} (old : List PosState)
    (running : (s.sweep i).state = .running) (inHandHere : ∀ j, j ≠ i → ∀ k, inHand x j k = 0)
    (owed : SweepForm (s.sweep i) → (∀ k, s.tally (·.isFor i k) + inHand x i k = (s.sweep i).owed k) →
      old.length = d.list.length ∧ ∀ k, s.tally (·.isFor i k) = owedBy old k) :
    Keeps x none s (s.endPass i old d) := by
  obtain ⟨n, hn⟩ : ∃ n, n = d.positions.countP (stillOut old (s.withdrawn i)) := ⟨_, rfl⟩
  rw [State.endPass_eq s i old d n hn]
  have own : ((((s.setPages i (s.pagesOf i).discard).withdraw i).setSweep i { s.sweep i with
      run := none, remnant := n, state := if n = 0 then .idle else .stopping
      timer := none, armExpiry := false }).leaveNotice i).sweep i = { s.sweep i with
      run := none, remnant := n, state := if n = 0 then .idle else .stopping
      timer := none, armExpiry := false } := by
    simp only [State.leaveNotice, State.answerWaiters_sweep, State.setSweep_sweep]
  have others : ∀ j, j ≠ i → ((((s.setPages i (s.pagesOf i).discard).withdraw i).setSweep i { s.sweep i with
      run := none, remnant := n, state := if n = 0 then .idle else .stopping
      timer := none, armExpiry := false }).leaveNotice i).sweep j = s.sweep j := fun j hj => by
    simp only [State.leaveNotice, State.answerWaiters_sweep, State.setSweep_sweep_ne _ i _ j hj]
    rfl
  refine .of_sweep i (fun h => ?_) (·.congr rfl rfl) rfl others (by rw [own]) ?_ ?_ ?_ ?_ ?_ ?_ ?_
  · exact (Keeps.answerWaiters none (((s.setPages i (s.pagesOf i).discard).withdraw i).setSweep i _) _ _ _).link h
  · rw [own, running]; split <;> simp
  · rw [own]; exact fun h => h.endPass running n
  · exact fun h => h.leaveNotice (.refl _) fun j hj => by
      rw [State.setSweep_sweep_ne _ i _ j hj]; rfl
  · exact fun h => (s.setPages i (s.pagesOf i).discard).withdraw_ports i h
  · exact fun h => (s.setPages i (s.pagesOf i).discard).withdraw_converterLaw i h
  · intro j hj k
    rw [inHandHere j hj, inHand_none]
    exact s.withdraw_tally_other i j hj k
  · intro _ form before
    rw [Sweep.fits_of_running running] at before
    obtain ⟨length, tally⟩ := owed form before
    have left : ∀ k, (((((s.setPages i (s.pagesOf i).discard).withdraw i).setSweep i { s.sweep i with
        run := none, remnant := n, state := if n = 0 then .idle else .stopping
        timer := none, armExpiry := false }).leaveNotice i).tally (·.isFor i k) + inHand none i k)
        = if k ∈ d.positions ∧ stillOut old (s.withdrawn i) k = true then 1 else 0 :=
      fun k => s.withdraw_tally_of_owed length tally k
    simp only [left]
    have total : ((List.finRange 16).map fun k =>
        if k ∈ d.positions ∧ stillOut old (s.withdrawn i) k = true then 1 else 0).sum = n := by
      rw [hn, SweepDef.positions, List.countP_filter, ← sum_map_ite_eq_countP]
      congr 1
      refine List.map_congr_left fun k _ => ?_
      simp [and_comm]
    by_cases zero : n = 0
    · rw [Sweep.fits_of_quiet (.inr (.inl (by rw [own, if_pos zero])))]
      intro k
      rw [zero, List.sum_eq_zero_iff] at total
      exact total _ (List.mem_map.2 ⟨k, List.mem_finRange k, rfl⟩)
    · rw [Sweep.fits_of_stopping (by rw [own, if_neg zero])]
      refine ⟨fun k => by split <;> omega, ?_⟩
      rw [own, total]

end Sys2Proof.Machine
end

section
/-! PROOFS. Completions, publications and the SWEEP requests keep every law; with them every command does. -/

namespace Sys2Proof.Machine

/-! ### Publication (R63 to R66) -/

section
variable (s : State) (i : SweepNo) (d : SweepDef)

/-- The sweep as the publication leaves it before its next state: counters moved, the running pass over. -/
def Sweep.passed (w : Sweep) : Sweep := { w with sinceArm := w.sinceArm + 1, published := w.started, run := none }

/-- The state of a publication before the sweep's next state is set: page, satisfied waiters, PASS event. -/
def State.announced (s : State) (i : SweepNo) (d : SweepDef) : State :=
  ((s.publishPage i).answerSatisfied i).notifyPass i d

theorem State.notifyPass_cases : s.notifyPass i d = s ∨ ∃ items, s.notifyPass i d = s.offerEvent .pass items := by
  unfold State.notifyPass
  split
  · exact .inr ⟨_, rfl⟩
  · exact .inl rfl

/-- Announcing a publication changes the sweep's counters, its pages, the link, the waiters and the dropped count only. -/
theorem State.announced_frame : (s.announced i d).slots = s.slots
    ∧ (s.announced i d).sweeps = s.sweeps.set i (s.sweep i).passed ∧ (s.announced i d).ports = s.ports
    ∧ (s.announced i d).conv = s.conv ∧ (s.announced i d).waiters.Sublist s.waiters := by
  unfold State.announced
  rcases ((s.publishPage i).answerSatisfied i).notifyPass_cases i d with e | ⟨items, e⟩ <;> rw [e]
  · exact ⟨rfl, rfl, rfl, rfl, List.filter_sublist⟩
  · simp only [State.offerEvent_slots, State.offerEvent_sweeps, State.offerEvent_ports, State.offerEvent_conv,
      State.offerEvent_waiters]
    exact ⟨rfl, rfl, rfl, rfl, List.filter_sublist⟩

theorem State.announced_sweep : (s.announced i d).sweep i = (s.sweep i).passed := by
  simp [State.sweep, (s.announced_frame i d).2.1]

theorem State.announced_sweep_ne (j : SweepNo) (h : j ≠ i) : (s.announced i d).sweep j = s.sweep j := by
  have : (s.announced i d).sweep j = (s.setSweep i (s.sweep i).passed).sweep j := by
    simp only [State.sweep, (s.announced_frame i d).2.1, State.setSweep_sweeps]
  rw [this, s.setSweep_sweep_ne i _ j h]

theorem State.announced_link (h : LinkLaw s.link) : LinkLaw (s.announced i d).link := by
  have answered : LinkLaw ((s.publishPage i).answerSatisfied i).link :=
    (Keeps.answerWaiters none (s.publishPage i) _ _ _).link h
  unfold State.announced
  rcases ((s.publishPage i).answerSatisfied i).notifyPass_cases i d with e | ⟨items, e⟩ <;> rw [e]
  · exact answered
  · exact answered.offerEvent _ _ rfl

theorem State.announced_watch (h : WatchLaw s) : WatchLaw (s.announced i d) := by
  have answered : WatchLaw ((s.publishPage i).answerSatisfied i) := h.congr rfl rfl
  unfold State.announced
  rcases ((s.publishPage i).answerSatisfied i).notifyPass_cases i d with e | ⟨items, e⟩ <;> rw [e]
  · exact answered
  · exact answered.offerEvent _ _

end

/-- A pass that is over leaves its sweep ARMED. -/
theorem SweepForm.rearm {w : Sweep} (h : SweepForm w) (hs : w.state = .running) :
    SweepForm { w.passed with state := .armed } where
  empty := by have := h.empty; simp only [hs] at this; simpa [Sweep.passed] using this
  short := h.short
  running := by simp [Sweep.passed]
  positions := by simp [Sweep.passed]
  timer := by have := h.timer; simp only [hs] at this; exact this
  remnant := by have := h.remnant; simp only [hs] at this; simpa [Sweep.passed] using this
  held := by have := h.held; simp only [hs] at this; simpa [Sweep.passed] using this
  missed := h.missed

/-- The next state of a sweep after a publication (R36). -/
def Sweep.afterPass (w : Sweep) (limit : Bool) : Sweep :=
  if limit then { w.passed with state := .idle, timer := none, armExpiry := false } else { w.passed with state := .armed }

theorem Sweep.afterPass_form {w : Sweep} (h : SweepForm w) (hs : w.state = .running) (limit : Bool) :
    SweepForm (w.afterPass limit) := by
  cases limit
  · exact h.rearm hs
  · exact (h.rearm hs).goIdle rfl _ h.missed

/-- The end of a full pass: no request is outstanding, and the sweep becomes ARMED or IDLE. -/
theorem Keeps.afterPublication {s : State} {i : SweepNo} {d : SweepDef} (running : (s.sweep i).state = .running)
    (complete : (s.sweep i).allComplete = true) :
    Keeps none none s ((s.announced i d).afterPublication i d) := by
  obtain ⟨slots, _, ports, conv, waiters⟩ := s.announced_frame i d
  have own := s.announced_sweep i d
  obtain ⟨limit, hl⟩ : ∃ limit, limit = limitReached d ((s.announced i d).sweep i).sinceArm := ⟨_, rfl⟩
  -- The state is that of the announcement with the sweep's next state, and with a leave notice if it is IDLE.
  obtain ⟨t, ht, link, parts, sweeps, waiting⟩ : ∃ t, t = (s.announced i d).afterPublication i d
      ∧ (LinkLaw (s.announced i d).link → LinkLaw t.link)
      ∧ (t.slots = (s.announced i d).slots ∧ t.ports = (s.announced i d).ports ∧ t.conv = (s.announced i d).conv
        ∧ t.watches = (s.announced i d).watches ∧ t.dropped = (s.announced i d).dropped)
      ∧ t.sweeps = (s.announced i d).sweeps.set i ((s.sweep i).afterPass limit)
      ∧ (WaiterLaw s → WaiterLaw t) := by
    unfold State.afterPublication
    rw [← hl]
    cases limit
    · refine ⟨_, rfl, id, ⟨rfl, rfl, rfl, rfl, rfl⟩, by rw [own]; rfl, fun h => h.sublist waiters fun v _ on => ?_⟩
      by_cases e : v.sweep = i
      · simp only [e, Bool.false_eq_true, if_false, State.setSweep_sweep]; rfl
      · simp only [Bool.false_eq_true, if_false, State.setSweep_sweep_ne _ i _ _ e, s.announced_sweep_ne i d _ e]
        exact on
    · simp only [if_true, State.setSweep_leave]
      refine ⟨_, rfl, fun h => (Keeps.answerWaiters none ((s.announced i d).setSweep i _) _ _ _).link h,
        ⟨rfl, rfl, rfl, rfl, rfl⟩, by rw [own]; rfl,
        fun h => h.leaveNotice waiters fun j hj => ?_⟩
      rw [State.setSweep_sweep_ne _ i _ j hj, s.announced_sweep_ne i d j hj]
  obtain ⟨hslots, hports, hconv, hwatches, hdropped⟩ := parts
  have after : t.sweep i = (s.sweep i).afterPass limit := by simp [State.sweep, sweeps]
  have quiet : (t.sweep i).state = .idle ∨ (t.sweep i).state = .armed := by
    rw [after]; cases limit <;> simp [Sweep.afterPass]
  rw [← ht]
  refine .of_sweep i (fun h => link (s.announced_link i d h))
    (fun h => (s.announced_watch i d h).congr hwatches hdropped) (hslots.trans slots) ?_ ?_ ?_ ?_ waiting ?_ ?_ ?_ ?_
  · intro j hj
    have : t.sweep j = ((s.announced i d).setSweep i ((s.sweep i).afterPass limit)).sweep j := by
      simp only [State.sweep, sweeps, State.setSweep_sweeps]
    rw [this, State.setSweep_sweep_ne _ i _ j hj, s.announced_sweep_ne i d j hj]
  · rw [after]; cases limit <;> rfl
  · rw [running]; rcases quiet with e | e <;> simp [e]
  · rw [after]; exact fun h => Sweep.afterPass_form h running limit
  · exact fun h p => by simpa only [State.port, hports.trans ports] using h p
  · exact fun h => (hconv.trans conv).symm ▸ h
  · intro j _ k
    rw [State.tally_congr (hports.trans ports) (hconv.trans conv)]
  · intro _ _ before
    rw [Sweep.fits_of_running running] at before
    rw [Sweep.fits_of_quiet (.inr quiet)]
    intro k
    rw [State.tally_congr (hports.trans ports) (hconv.trans conv), before k, Sweep.owed]
    split
    · rename_i h
      have := List.all_eq_true.1 complete _ (List.mem_of_getElem? h)
      simp at this
    · rename_i h
      have := List.all_eq_true.1 complete _ (List.mem_of_getElem? h)
      simp at this
    all_goals rfl

theorem Keeps.publish {s : State} {i : SweepNo} {d : SweepDef} (running : (s.sweep i).state = .running)
    (complete : (s.sweep i).allComplete = true) : Keeps none none s (s.publish i d) :=
  (Keeps.afterPublication running complete).trans (.foldl (fun u j => .trigger u j) _ _)

/-! ### Completions (Table 3-2) -/

/-- In hand is a request for one position of one sweep. -/
theorem inHand_elsewhere (q : ProbeRequest) (j : SweepNo) (h : j ≠ q.sweep) (k : Fin 16) : inHand (some q) j k = 0 := by
  simp [inHand_some, ProbeRequest.isFor, h.symm]

theorem inHand_here (q : ProbeRequest) (k : Fin 16) : inHand (some q) q.sweep k = if k = q.position then 1 else 0 := by
  simp only [inHand_some, ProbeRequest.isFor, beq_self_eq_true, Bool.true_and, beq_iff_eq]
  exact if_congr eq_comm rfl rfl

/-- The Sweep Engine takes a completion from its arbiter: it has the request in hand. -/
theorem Keeps.takeDone (s : State) (r : Resource) {c : Completion} {rest : List Completion}
    (hd : (s.arb r).done = c :: rest) : Keeps none (some c.req) s (s.setArb r { s.arb r with done := rest }) := by
  have tally : ∀ m, (s.setArb r { s.arb r with done := rest }).tally m + (if m c.req then 1 else 0) = s.tally m := by
    intro m
    have arb : Arbiter.tally m { s.arb r with done := rest } + (if m c.req then 1 else 0) = (s.arb r).tally m := by
      simp only [Arbiter.tally, hd, List.countP_cons]
      omega
    cases r with
    | tw p =>
      have moved := s.tally_setPort p { s.port p with arb := { (s.port p).arb with done := rest } } m
      simp only [Port.tally] at moved
      simp only [State.arb] at arb
      simp only [State.setArb, State.arb]
      omega
    | analog =>
      have moved := s.tally_setConv { s.conv with arb := { s.conv.arb with done := rest } } m
      simp only [Converter.tally] at moved
      simp only [State.arb] at arb
      simp only [State.setArb, State.arb]
      omega
  refine {
    link := by rw [State.setArb_link]; exact id
    refs := fun h => h.congr (by simp) (fun i => by simp) (fun i => by simp)
    sweeps := fun h i => by rw [State.setArb_sweep]; exact h i
    outstanding := fun _ _ _ h i => ?_
    waiters := fun h => h.sublist (by simp) (fun w _ => by rw [State.setArb_sweep]; exact id)
    ports := fun h p => ?_
    conv := fun h => ?_
    watch := fun h => h.congr (by simp) (by simp) }
  · rw [State.setArb_sweep]
    have same : (fun k => (s.setArb r { s.arb r with done := rest }).tally (·.isFor i k) + inHand (some c.req) i k)
        = fun k => s.tally (·.isFor i k) + inHand none i k := by
      funext k
      rw [inHand_some, tally, inHand_none, Nat.add_zero]
    rw [same]
    exact h i
  · cases r with
    | tw j =>
      by_cases e : p = j
      · subst e
        simp only [State.setArb, State.setPort_port]
        exact (h p).congr rfl rfl rfl rfl rfl fun _ => rfl
      · simp only [State.setArb, State.setPort_port_ne _ j _ p e]; exact h p
    | analog => exact h p
  · cases r with
    | tw j => exact h
    | analog => exact h.congr rfl rfl rfl rfl

/-- A completion that cannot be in hand: the law of the outstanding requests excludes it. -/
theorem Keeps.of_excluded {q : ProbeRequest} {s : State}
    (excluded : SweepForm (s.sweep q.sweep) →
      (s.sweep q.sweep).Fits (fun k => s.tally (·.isFor q.sweep k) + inHand (some q) q.sweep k) → False) :
    Keeps (some q) none s s where
  link := id
  refs := id
  sweeps := id
  outstanding _ hs _ h := (excluded (hs _) (h _)).elim
  waiters := id
  ports := id
  conv := id
  watch := id

theorem Sweep.owed_eq {w : Sweep} {k : Fin 16} {p : PosState} (h : w.positions[k.val]? = some p) :
    w.owed k = if p = .complete then 0 else 1 := by
  unfold Sweep.owed
  rw [h]
  cases p <;> rfl

/-- One position state replaced. -/
theorem owedBy_set (l : List PosState) (j k : Fin 16) (p : PosState) (hj : j.val < l.length) :
    owedBy (l.set j.val p) k = if k = j then (if p = .complete then 0 else 1) else owedBy l k := by
  unfold owedBy
  by_cases e : k = j
  · subst e
    rw [List.getElem?_set_self hj, if_pos rfl]
    cases p <;> rfl
  · rw [List.getElem?_set_ne fun h => e (Fin.ext h.symm), if_neg e]

/-- The position in hand of a pass comes to rest: nothing more is owed for it. -/
theorem owedBy_set_complete {l : List PosState} {q : ProbeRequest} {f : Fin 16 → Nat} {p : PosState}
    (hp : l[q.position.val]? = some p) (owed : ∀ k, f k + inHand (some q) q.sweep k = owedBy l k) (k : Fin 16) :
    f k = owedBy (l.set q.position.val .complete) k := by
  have hj := (List.getElem?_eq_some_iff.1 hp).1
  have before := owed k
  have bound := owedBy_le_one l k
  rw [inHand_here] at before
  rw [owedBy_set l q.position k _ hj]
  by_cases e : k = q.position
  · rw [if_pos e] at before ⊢
    simp only [if_true]
    omega
  · rw [if_neg e] at before ⊢
    exact before

/-- A running pass is some pass, with one position state for each place of the list. -/
theorem SweepForm.length_positions {w : Sweep} (h : SweepForm w) (hs : w.state = .running) {d : SweepDef}
    (hd : w.defn = some d) : w.positions.length = d.list.length := by
  obtain ⟨r, hr⟩ := Option.isSome_iff_exists.1 (h.running.1 hs)
  simpa only [Sweep.positions, hr] using h.positions d r hd hr

/-- A position state of a running pass replaced keeps the form of the sweep. -/
theorem SweepForm.setPosition {w : Sweep} (h : SweepForm w) (k : Fin 16) (p : PosState) :
    SweepForm { w with run := w.run.map fun r => { r with positions := r.positions.set k.val p } } where
  empty := h.empty
  short := h.short
  running := by simpa using h.running
  positions := by
    intro d r hd hr
    obtain ⟨r', hr', rfl⟩ := Option.map_eq_some_iff.1 hr
    simpa using h.positions d r' hd hr'
  timer := h.timer
  remnant := h.remnant
  held := h.held
  missed := h.missed

theorem Sweep.positions_set (w : Sweep) (k : Fin 16) (p : PosState) :
    Sweep.positions { w with run := w.run.map fun r => { r with positions := r.positions.set k.val p } }
      = w.positions.set k.val p := by
  unfold Sweep.positions
  cases w.run <;> rfl

section
variable {s : State} {c : Completion} {d : SweepDef}

/-- The completion of a PENDING position is written, and the position is COMPLETE. -/
theorem Keeps.setComplete (running : (s.sweep c.req.sweep).state = .running) {p : PosState}
    (hp : (s.sweep c.req.sweep).positions[c.req.position.val]? = some p) :
    Keeps (some c.req) none s (s.setPosition c.req.sweep c.req.position .complete) := by
  have own := s.setSweep_sweep c.req.sweep { s.sweep c.req.sweep with
    run := (s.sweep c.req.sweep).run.map fun r => { r with positions := r.positions.set c.req.position.val .complete } }
  refine .of_sweep c.req.sweep id (·.congr rfl rfl) rfl (fun j h => s.setSweep_sweep_ne _ _ j h) ?_ ?_ ?_ ?_ id id ?_ ?_
  · rw [State.setPosition, own]
  · rw [State.setPosition, own]
  · rw [State.setPosition, own]
    exact fun h => h.setPosition _ _
  · refine fun h => h.sublist (.refl _) fun v _ on => ?_
    by_cases e : v.sweep = c.req.sweep
    · rw [e] at on ⊢; rw [State.setPosition, own]; exact on
    · rw [State.setPosition, s.setSweep_sweep_ne _ _ _ e]; exact on
  · intro j hj k
    rw [inHand_elsewhere c.req j hj, inHand_none]
    rfl
  · intro _ _ before
    rw [Sweep.fits_of_running running] at before
    rw [State.setPosition, own, Sweep.fits_of_running (by exact running)]
    intro k
    rw [inHand_none, Nat.add_zero, Sweep.owed_eq_owedBy, Sweep.positions_set]
    exact owedBy_set_complete hp before k

theorem Keeps.writeCompletion (running : (s.sweep c.req.sweep).state = .running)
    (hp : (s.sweep c.req.sweep).positions[c.req.position.val]? = some .pending) :
    Keeps (some c.req) none s (s.writeCompletion c.req.sweep d c) := by
  have written := (Keeps.setPages (some c.req) s c.req.sweep ((s.pagesOf c.req.sweep).write c.req.position c)).trans
    (Keeps.setComplete (c := c) running hp)
  simp only [State.writeCompletion]
  split
  · rename_i full
    refine written.trans (.publish ?_ full)
    simp only [State.setPosition, State.setSweep_sweep, State.setPages_sweep]
    exact running
  · exact written

theorem Keeps.haltPass (running : (s.sweep c.req.sweep).state = .running)
    (hd : (s.sweep c.req.sweep).defn = some d) {p : PosState}
    (hp : (s.sweep c.req.sweep).positions[c.req.position.val]? = some p) :
    Keeps (some c.req) none s (s.haltPass c.req.sweep d c) := by
  refine Keeps.trans (.endPass _ running (inHand_elsewhere c.req) fun form before => ⟨?_, fun k => ?_⟩)
    (.offerEvent none _ _ _ rfl)
  · rw [List.length_set, form.length_positions running hd]
  · exact owedBy_set_complete hp before k

/-- A completion of a DEFERRED position: the new request takes the place of the old (R52). -/
theorem Keeps.reissueDeferred (running : (s.sweep c.req.sweep).state = .running)
    (hd : (s.sweep c.req.sweep).defn = some d)
    (hp : (s.sweep c.req.sweep).positions[c.req.position.val]? = some .deferred) :
    Keeps (some c.req) none s (s.reissueDeferred c.req.sweep d c.req.position) := by
  obtain ⟨u, hu⟩ : ∃ u, u = s.setPosition c.req.sweep c.req.position .pending := ⟨_, rfl⟩
  have sweep : ∀ j, (s.reissueDeferred c.req.sweep d c.req.position).sweep j = u.sweep j := fun j => by
    simp only [State.reissueDeferred, ← hu, State.sweep, State.issue_sweeps]
  have own : u.sweep c.req.sweep = { s.sweep c.req.sweep with
      run := (s.sweep c.req.sweep).run.map fun r => { r with positions := r.positions.set c.req.position.val .pending } } := by
    rw [hu, State.setPosition, State.setSweep_sweep]
  have other : ∀ j, j ≠ c.req.sweep → u.sweep j = s.sweep j := fun j hj => by
    rw [hu, State.setPosition, State.setSweep_sweep_ne _ _ _ j hj]
  have issued : s.reissueDeferred c.req.sweep d c.req.position = u.issueAll c.req.sweep d [c.req.position] := by
    rw [hu]; rfl
  have link : u.link = s.link ∧ u.slots = s.slots ∧ u.watches = s.watches ∧ u.dropped = s.dropped
      ∧ u.waiters = s.waiters ∧ u.ports = s.ports ∧ u.conv = s.conv := by
    rw [hu]; exact ⟨rfl, rfl, rfl, rfl, rfl, rfl, rfl⟩
  obtain ⟨hlink, hslots, hwatches, hdropped, hwaiters, hports, hconv⟩ := link
  refine .of_sweep c.req.sweep ?_ ?_ ?_ (fun j hj => by rw [sweep, other j hj]) (by rw [sweep, own])
    (by rw [sweep, own]) ?_ ?_ ?_ ?_ ?_ ?_
  · rw [issued, State.issueAll_link, hlink]; exact id
  · exact fun h => h.congr (by rw [issued, State.issueAll_watches, hwatches]) (by rw [issued, State.issueAll_dropped, hdropped])
  · rw [issued, State.issueAll_slots, hslots]
  · rw [sweep, own]; exact fun h => h.setPosition _ _
  · refine fun h => h.sublist (by rw [issued, State.issueAll_waiters, hwaiters]) fun v _ on => ?_
    rw [sweep]
    by_cases e : v.sweep = c.req.sweep
    · rw [e] at on ⊢; rw [own]; exact on
    · rw [other _ e]; exact on
  · intro h
    rw [issued]
    exact u.issueAll_ports _ d _ fun p => by simpa only [State.port, hports] using h p
  · intro h
    rw [issued]
    exact u.issueAll_conv _ d _ (hconv ▸ h)
  · intro j hj k
    rw [inHand_elsewhere c.req j hj, inHand_none, issued, u.issueAll_tally_other _ d _ j hj,
      State.tally_congr hports hconv]
  · intro refs form before
    rw [Sweep.fits_of_running running] at before
    rw [sweep, Sweep.fits_of_running (by rw [own]; exact running)]
    have inList : c.req.position.val < d.list.length := by
      rw [← form.length_positions running hd]
      exact (List.getElem?_eq_some_iff.1 hp).1
    have defined : ∀ slot, slot ∈ d.list → (u.slot slot).record.isSome = true := fun slot hs => by
      simpa only [State.slot, hslots] using refs.defined_of_defn hd slot hs
    intro k
    have here := before k
    rw [inHand_here, Sweep.owed_eq_owedBy] at here
    rw [issued, u.issueAll_tally _ d _ (by simpa using inList) defined, State.tally_congr hports hconv,
      Sweep.owed_eq_owedBy, own, Sweep.positions_set,
      owedBy_set _ _ _ _ (List.getElem?_eq_some_iff.1 hp).1, inHand_none, List.count_singleton]
    by_cases e : k = c.req.position
    · subst e
      have owedHere : owedBy (s.sweep c.req.sweep).positions c.req.position = 1 := by simp [owedBy, hp]
      simp only [if_true, beq_self_eq_true, owedHere] at here ⊢
      simp only [reduceCtorEq, if_false]
      omega
    · have e' : (c.req.position == k) = false := beq_false_of_ne (Ne.symm e)
      simp only [e, e', if_false, Bool.false_eq_true] at here ⊢
      omega

/-- A remnant ends (R40). -/
theorem Keeps.remnantEnds (stopping : (s.sweep c.req.sweep).state = .stopping) :
    Keeps (some c.req) none s (s.remnantEnds c.req.sweep) := by
  -- One fewer is outstanding, and one fewer is counted.
  have remaining : (s.sweep c.req.sweep).Fits
      (fun k => s.tally (·.isFor c.req.sweep k) + inHand (some c.req) c.req.sweep k) →
      (∀ k, s.tally (·.isFor c.req.sweep k) ≤ 1)
        ∧ (s.sweep c.req.sweep).remnant - 1 = ((List.finRange 16).map fun k => s.tally (·.isFor c.req.sweep k)).sum := by
    intro before
    rw [Sweep.fits_of_stopping stopping] at before
    obtain ⟨one, total⟩ := before
    refine ⟨fun k => by have := one k; omega, ?_⟩
    have single : ((List.finRange 16).map (inHand (some c.req) c.req.sweep)).sum = 1 := by
      have e : inHand (some c.req) c.req.sweep = fun k => if (k == c.req.position) then 1 else 0 := by
        funext k
        simp [inHand_here]
      rw [e, sum_map_ite_eq_countP]
      exact List.count_eq_one_of_mem (List.nodup_finRange 16) (List.mem_finRange _)
    rw [List.sum_map_add, single] at total
    omega
  have set : ∀ w : Sweep, w.defn = (s.sweep c.req.sweep).defn → w.state ≠ .empty →
      (SweepForm (s.sweep c.req.sweep) → SweepForm w) →
      ((∀ k, s.tally (·.isFor c.req.sweep k) ≤ 1) → (s.sweep c.req.sweep).remnant - 1
          = ((List.finRange 16).map fun k => s.tally (·.isFor c.req.sweep k)).sum →
        w.Fits fun k => s.tally (·.isFor c.req.sweep k)) →
      Keeps (some c.req) none s (s.setSweep c.req.sweep w) := by
    intro w defn notEmpty form fits
    refine .of_sweep c.req.sweep id (·.congr rfl rfl) rfl (fun j h => s.setSweep_sweep_ne _ _ j h) ?_ ?_ ?_ ?_ id id ?_ ?_
    · rw [s.setSweep_sweep]; exact defn
    · rw [s.setSweep_sweep, stopping]; simp [notEmpty]
    · rw [s.setSweep_sweep]; exact form
    · refine fun h => h.sublist (.refl _) fun v _ on => ?_
      have e : v.sweep ≠ c.req.sweep := fun e => by
        rw [e, stopping] at on
        simp [SweepState.triggerable] at on
      rw [s.setSweep_sweep_ne _ _ _ e]; exact on
    · intro j hj k
      rw [inHand_elsewhere c.req j hj, inHand_none]
      rfl
    · intro _ _ before
      rw [s.setSweep_sweep]
      exact fits (remaining before).1 (remaining before).2
  simp only [State.remnantEnds]
  split
  · rename_i last
    simp only [State.releaseHeld, State.setSweep_sweep, State.setSweep_setSweep]
    refine Keeps.trans (set { s.sweep c.req.sweep with remnant := 0, state := .idle, held := [] } rfl nofun
      (fun h => ?_) fun _ total => ?_) (.foldl (fun u ref => .reply none u _ _ _) _ _)
    · exact {
        empty := by have := h.empty; simp only [stopping] at this; simpa using this
        short := h.short
        running := by have := h.running; simp only [stopping] at this; simpa using this
        positions := h.positions
        timer := by have := h.timer; simp only [stopping] at this; exact this
        remnant := by simp
        held := by simp
        missed := h.missed }
    · rw [Sweep.fits_of_quiet (.inr (.inl rfl))]
      rw [last] at total
      intro k
      exact List.sum_eq_zero_iff.1 total.symm _ (List.mem_map.2 ⟨k, List.mem_finRange k, rfl⟩)
  · rename_i more
    refine set _ rfl (by simp [stopping]) (fun h => ?_) fun one total => ?_
    · exact { h with remnant := by simp only [stopping, true_iff]; omega }
    · rw [Sweep.fits_of_stopping (by exact stopping)]
      exact ⟨one, total⟩

end

/-- The handling of a completion (Table 3-2): in the cases that the table leaves out no request can be in hand. -/
theorem Keeps.handleCompletion (s : State) (c : Completion) : Keeps (some c.req) none s (s.handleCompletion c) := by
  have quiet : ∀ st, st = (s.sweep c.req.sweep).state → st = .empty ∨ st = .idle ∨ st = .armed →
      Keeps (some c.req) none s s := fun st e h => .of_excluded fun _ before => by
    rw [Sweep.fits_of_quiet (e ▸ h)] at before
    have := before c.req.position
    simp [inHand_here] at this
  simp only [State.handleCompletion]
  cases hs : (s.sweep c.req.sweep).state with
  | empty => exact quiet .empty hs.symm (.inl rfl)
  | idle => exact quiet .idle hs.symm (.inr (.inl rfl))
  | armed => exact quiet .armed hs.symm (.inr (.inr rfl))
  | stopping => exact .remnantEnds hs
  | running =>
    cases hd : (s.sweep c.req.sweep).defn with
    | none =>
      refine .of_excluded fun form _ => ?_
      have := form.empty.2 hd
      simp [hs] at this
    | some d =>
      cases hp : (s.sweep c.req.sweep).positions[c.req.position.val]? with
      | some p =>
        cases p with
        | pending =>
          simp only
          split
          · exact .haltPass hs hd hp
          · exact .writeCompletion hs hp
        | deferred => exact .reissueDeferred hs hd hp
        | complete =>
          refine .of_excluded fun _ before => ?_
          rw [Sweep.fits_of_running hs] at before
          have := before c.req.position
          simp [inHand_here, Sweep.owed, hp] at this
      | none =>
        refine .of_excluded fun _ before => ?_
        rw [Sweep.fits_of_running hs] at before
        have := before c.req.position
        simp [inHand_here, Sweep.owed, hp] at this

theorem exec_completion_keeps (r : Resource) (s : State) : AnswersKeeping s (exec (.completion r) s) := by
  simp only [exec, execCompletion]
  split
  · exact .same s
  · rename_i c rest hd
    refine .next (((Keeps.takeDone s r hd).trans ?_).trans (.handleCompletion _ c))
    exact (Keeps.queue_free (some c.req) (s.setArb r { s.arb r with done := rest }) _ (s.free + 1)).trans
      (.sendCopy (some c.req) _ c _)

end Sys2Proof.Machine
end

section
/-! PROOFS. The SWEEP requests keep every law (R8, R22 to R40), so every command does, and every step: the laws of the link,
the reference counts, the outstanding requests, the waiters, the ports, the converter and the Watch Unit. The ranges of a
sweep definition are not kept by a SWEEP.SET whose payload is too short. -/

namespace Sys2Proof.Machine

/-! ### A SWEEP.SET payload (Table 2-3) -/

/-- When a SWEEP.SET payload gives a definition, and which. -/
theorem readSweep_eq_ok {p : List Byte} {d : SweepDef} : readSweep p = .ok d ↔
    ∃ source, readSource p = some source ∧ policiesOk p = true ∧ sweepListOk p = true
      ∧ d = { list := sweepListOf p, source := source, passLimit := readHalf p 7,
              overrun := if readByte p 9 = 1 then .restart else .skip
              faultPolicy := if readByte p 10 = 1 then .halt else .continue
              priority := Fin.ofNat 4 (readNat p 11), notify := readByte p 12 == 1 } := by
  unfold readSweep
  cases readSource p with
  | none => simp
  | some source =>
    cases policiesOk p with
    | false => simp
    | true =>
      cases sweepListOk p with
      | false => simp
      | true => simp [eq_comm]

theorem sweepListOk_iff (p : List Byte) : sweepListOk p = true ↔
    (1 ≤ readNat p 13 ∧ readNat p 13 ≤ 16)
      ∧ (∀ b, b ∈ (places p 14 16).take (readNat p 13) → b.toNat < 64)
      ∧ ((places p 14 16).take (readNat p 13)).Nodup ∧ allZero ((places p 14 16).drop (readNat p 13)) = true := by
  simp [sweepListOk, and_assoc]

/-- The list of a valid payload has at most 16 places, without repetition. -/
theorem sweepListOf_distinct {p : List Byte} (h : sweepListOk p = true) :
    (sweepListOf p).Nodup ∧ (sweepListOf p).length ≤ 16 := by
  obtain ⟨⟨_, short⟩, range, distinct, _⟩ := (sweepListOk_iff p).1 h
  refine ⟨distinct.map_on fun a ha b hb e => ?_, ?_⟩
  · have := range a ha
    have := range b hb
    have e : a.toNat % 64 = b.toNat % 64 := congrArg Fin.val e
    exact BitVec.eq_of_toNat_eq (by omega)
  · rw [sweepListOf, List.length_map, List.length_take]
    omega

theorem readSweep_list {p : List Byte} {d : SweepDef} (h : readSweep p = .ok d) : d.list.Nodup ∧ d.list.length ≤ 16 := by
  obtain ⟨_, _, _, list, rfl⟩ := readSweep_eq_ok.1 h
  exact sweepListOf_distinct list

/-- No slot that the list names is EMPTY when the search finds none. -/
theorem State.lowestEmpty_eq_none {s : State} {l : List (Fin 64)} (h : s.lowestEmpty l = none) (k : Fin 64) (hk : k ∈ l) :
    (s.slot k).record.isSome = true := by
  have := List.find?_eq_none.1 h k (List.mem_finRange k)
  simpa [hk, Option.isSome_iff_ne_none] using this

/-! ### Reference counts (R7, R8) -/

/-- Members counted by two conditions that differ at one member only. -/
theorem countP_update {α : Type} [DecidableEq α] {l : List α} (distinct : l.Nodup) {a : α} (ha : a ∈ l) (p q : α → Bool)
    (same : ∀ b, b ≠ a → q b = p b) :
    l.countP q + (if p a then 1 else 0) = l.countP p + (if q a then 1 else 0) := by
  have erased : (l.erase a).countP q = (l.erase a).countP p :=
    List.countP_congr fun b hb => by rw [same b (distinct.mem_erase_iff.1 hb).1]
  have hp := countP_erase_add p ha
  have hq := countP_erase_add q ha
  omega

theorem State.nameCount_setSweep (s : State) (i : SweepNo) (w : Sweep) (k : Fin 64) :
    (s.setSweep i w).nameCount k + (if k ∈ (s.sweep i).list then 1 else 0)
      = s.nameCount k + (if k ∈ w.list then 1 else 0) := by
  have same : ∀ j, j ≠ i → ((s.setSweep i w).sweep j).list.contains k = (s.sweep j).list.contains k := fun j hj => by
    rw [s.setSweep_sweep_ne i w j hj]
  have moved := countP_update (List.nodup_finRange 8) (List.mem_finRange i) (fun j => (s.sweep j).list.contains k)
    (fun j => ((s.setSweep i w).sweep j).list.contains k) (fun j hj => same j hj)
  simp only [State.setSweep_sweep, List.contains_iff_mem] at moved
  exact moved

theorem State.moveRefs_slot (s : State) (old new : List (Fin 64)) (k : Fin 64) : (s.moveRefs old new).slot k =
    { s.slot k with refs := (s.slot k).refs - old.count k + new.count k } := by
  simp [State.moveRefs, State.slot]

/-- Moved counts change the slots only. -/
theorem State.moveRefs_frame (s : State) (old new : List (Fin 64)) : ∃ v, s.moveRefs old new = { s with slots := v } :=
  ⟨_, Eq.refl (s.moveRefs old new)⟩

theorem State.moveRefs_sweep (s : State) (old new : List (Fin 64)) (i : SweepNo) :
    (s.moveRefs old new).sweep i = s.sweep i := by
  obtain ⟨v, e⟩ := s.moveRefs_frame old new
  rw [e]
  rfl

/-- An IDLE or EMPTY sweep is defined anew, or becomes EMPTY, with its reference counts moved. -/
theorem Keeps.redefine (s : State) (i : SweepNo) (w : Sweep)
    (before : (s.sweep i).state = .empty ∨ (s.sweep i).state = .idle) (after : w.state = .empty ∨ w.state = .idle)
    (empty : w.state = .empty ↔ w.defn = none) (form : SweepForm (s.sweep i) → SweepForm w) (distinct : w.list.Nodup)
    (defined : ∀ k, k ∈ w.list → (s.slot k).record.isSome = true) :
    Keeps none none s ((s.moveRefs (s.sweep i).list w.list).setSweep i w) := by
  obtain ⟨t, ht⟩ : ∃ t, t = (s.moveRefs (s.sweep i).list w.list).setSweep i w := ⟨_, rfl⟩
  rw [← ht]
  have own : t.sweep i = w := by rw [ht, State.setSweep_sweep]
  have other : ∀ j, j ≠ i → t.sweep j = s.sweep j := fun j hj => by
    rw [ht, State.setSweep_sweep_ne _ i w j hj, State.moveRefs_sweep]
  have slot : ∀ k, t.slot k = { s.slot k with
      refs := (s.slot k).refs - (s.sweep i).list.count k + w.list.count k } := fun k => by
    rw [ht, State.setSweep_slot, State.moveRefs_slot]
  obtain ⟨v, hv⟩ := s.moveRefs_frame (s.sweep i).list w.list
  have parts : t.link = s.link ∧ t.ports = s.ports ∧ t.conv = s.conv ∧ t.waiters = s.waiters ∧ t.watches = s.watches
      ∧ t.dropped = s.dropped := by rw [ht, hv]; exact ⟨rfl, rfl, rfl, rfl, rfl, rfl⟩
  have names : ∀ k, t.nameCount k = (s.setSweep i w).nameCount k := fun k => by rw [ht, hv]; rfl
  obtain ⟨link, ports, conv, waiters, watches, dropped⟩ := parts
  have quietBefore : (s.sweep i).state = .empty ∨ (s.sweep i).state = .idle ∨ (s.sweep i).state = .armed := by tauto
  exact {
    link := fun h => link ▸ h
    refs := fun h => {
      counted := fun k => by
        have moved := s.nameCount_setSweep i w k
        rw [← names k] at moved
        have count := h.counted k
        rw [slot, (h.distinct i).count, distinct.count]
        simp only
        by_cases hk : k ∈ (s.sweep i).list
        · have : 0 < s.nameCount k :=
            List.countP_pos_iff.2 ⟨i, List.mem_finRange i, List.contains_iff_mem.2 hk⟩
          simp only [if_pos hk] at moved ⊢
          omega
        · simp only [if_neg hk] at moved ⊢
          omega
      defined := fun j k hk => by
        rw [slot]
        by_cases e : j = i
        · rw [e, own] at hk; exact defined k hk
        · rw [other j e] at hk; exact h.defined j k hk
      distinct := fun j => by
        by_cases e : j = i
        · rw [e, own]; exact distinct
        · rw [other j e]; exact h.distinct j
      empty := fun j => by
        by_cases e : j = i
        · rw [e, own]; exact empty
        · rw [other j e]; exact h.empty j }
    sweeps := fun h j => by
      by_cases e : j = i
      · rw [e, own]; exact form (h i)
      · rw [other j e]; exact h j
    outstanding := fun _ _ _ h j => by
      simp only [State.tally_congr ports conv]
      by_cases e : j = i
      · rw [e, own, Sweep.fits_of_quiet (by tauto)]
        exact (Sweep.fits_of_quiet quietBefore _).1 (h i)
      · rw [other j e]; exact h j
    waiters := fun h => h.sublist (by rw [waiters]) fun v _ on => by
      have e : v.sweep ≠ i := fun e => by
        rw [e, SweepState.triggerable_iff] at on
        rcases before with b | b <;> simp [b] at on
      rw [other _ e]; exact on
    ports := fun h p => by simpa only [State.port, ports] using h p
    conv := fun h => conv ▸ h
    watch := fun h => h.congr watches dropped }

theorem SweepState.not_active_iff (w : SweepState) : w.active = false ↔ w = .empty ∨ w = .idle := by
  cases w <;> simp [SweepState.active]

/-- A sweep just defined: IDLE, with its counters zeroed. -/
theorem SweepForm.defined {d : SweepDef} (short : d.list.length ≤ 16) :
    SweepForm { Sweep.reset with state := .idle, defn := some d } where
  empty := by simp
  short := by rintro _ ⟨⟩; exact short
  running := by simp [Sweep.reset]
  positions := by simp [Sweep.reset]
  timer := by simp [Sweep.reset, SweepState.triggerable]
  remnant := by simp [Sweep.reset]
  held := by simp [Sweep.reset]
  missed := Nat.zero_le _

theorem SweepForm.cleared {w : Sweep} (h : SweepForm w) (hs : w.state = .idle) :
    SweepForm { w with state := .empty, defn := none } where
  empty := by simp
  short := by simp
  running := by have := h.running; simp only [hs] at this; simpa using this
  positions := by simp
  timer := by have := h.timer; simp only [hs, SweepState.triggerable] at this; simpa [isPeriodic] using this
  remnant := by have := h.remnant; simp only [hs] at this; simpa using this
  held := by have := h.held; simp only [hs] at this; simpa using this
  missed := h.missed

theorem firstExpiry_isSome (now : Time) (defn : Option SweepDef) : (firstExpiry now defn).isSome = isPeriodic defn := by
  cases defn with
  | none => rfl
  | some d =>
    simp only [firstExpiry, isPeriodic]
    cases d.source <;> rfl

theorem SweepForm.arm {w : Sweep} (h : SweepForm w) (hs : w.state = .idle) (now : Time) :
    SweepForm { w with state := .armed, sinceArm := 0, missed := 0, timer := firstExpiry now w.defn
                       armExpiry := phaseZero w.defn } where
  empty := by have := h.empty; simp only [hs] at this; simpa using this
  short := h.short
  running := by have := h.running; simp only [hs] at this; simpa using this
  positions := h.positions
  timer := by simp [firstExpiry_isSome, SweepState.triggerable]
  remnant := by have := h.remnant; simp only [hs] at this; simpa using this
  held := by have := h.held; simp only [hs] at this; simpa using this
  missed := Nat.zero_le _

/-! ### SWEEP requests -/

theorem Keeps.takeSweep {s t : State} {k : ReqKind} {r : Request} (h : s.takeSweep k = some (r, t)) :
    Keeps none none s t := by
  unfold State.takeSweep at h
  split at h
  · simp at h
  · rename_i r' rest _
    have taken := Keeps.setHand none s { s.hand with sweepEngine := rest }
    simp only at h
    split at h <;> cases h
    · exact taken
    · exact taken.trans (.takeArmExpiry _ _)

theorem exec_sweepSet_keeps (s : State) : AnswersKeeping s (exec .sweepSet s) := by
  simp only [exec, execSweepSet]
  split
  · exact .same s
  · rename_i r t ht
    have taken := Keeps.takeSweep ht
    split
    · exact .next (taken.trans (.reply none _ _ _ _))
    · rename_i i _
      refine .next (taken.trans ?_)
      simp only [State.sweepSet]
      split
      · exact .reply none _ _ _ _
      · rename_i inactive
        split
        · exact .reply none _ _ _ _
        · rename_i d hd
          split
          · exact .reply none _ _ _ _
          · rename_i named
            obtain ⟨distinct, short⟩ := readSweep_list hd
            have quiet := (SweepState.not_active_iff _).1 (Bool.not_eq_true _ ▸ inactive)
            exact ((Keeps.redefine t i { Sweep.reset with state := .idle, defn := some d } quiet (.inr rfl) (by simp)
              (fun _ => .defined short) distinct (State.lowestEmpty_eq_none named)).trans (.setPages none _ i _)).trans
              (.reply none _ _ _ _)

theorem Keeps.clearSweep (s : State) (i : SweepNo) (idle : (s.sweep i).state = .idle) :
    Keeps none none s (s.clearSweep i) := by
  have cleared := Keeps.redefine s i { s.sweep i with state := .empty, defn := none } (.inr idle) (.inl rfl) (by simp)
    (fun h => h.cleared idle) List.nodup_nil (fun _ hk => absurd hk List.not_mem_nil)
  rw [show Sweep.list { s.sweep i with state := .empty, defn := none } = [] from rfl] at cleared
  simpa only [State.clearSweep, State.moveRefs_sweep] using cleared

theorem exec_sweepClear_keeps (s : State) : AnswersKeeping s (exec .sweepClear s) := by
  simp only [exec, execSweepClear]
  split
  · exact .same s
  · rename_i r t ht
    have taken := Keeps.takeSweep ht
    split
    · exact .next (taken.trans (.reply none _ _ _ _))
    · split
      · exact .next (taken.trans (.reply none _ _ _ _))
      · rename_i idle
        exact .next ((taken.trans (.clearSweep t _ idle)).trans (.reply none _ _ _ _))
      all_goals exact .next (taken.trans (.reply none _ _ _ _))

theorem Keeps.armSweep (s : State) (i : SweepNo) (idle : (s.sweep i).state = .idle) :
    Keeps none none s (s.armSweep i) :=
  .setSweep s i _ rfl (by simp [idle]) (fun h => h.arm idle s.time) (fun on => by simp [idle, SweepState.triggerable] at on)
    fun f _ hf => (Sweep.fits_of_quiet (.inr (.inr rfl)) f).2 ((Sweep.fits_of_quiet (.inr (.inl idle)) f).1 hf)

theorem exec_sweepArm_keeps (s : State) : AnswersKeeping s (exec .sweepArm s) := by
  simp only [exec, execSweepArm]
  split
  · exact .same s
  · rename_i r t ht
    have taken := Keeps.takeSweep ht
    split
    · exact .next (taken.trans (.reply none _ _ _ _))
    · split
      · exact .next (taken.trans (.reply none _ _ _ _))
      · rename_i idle
        exact .next ((taken.trans (.armSweep t _ idle)).trans (.reply none _ _ _ _))
      all_goals exact .next (taken.trans (.reply none _ _ _ _))

theorem exec_sweepFire_keeps (s : State) : AnswersKeeping s (exec .sweepFire s) := by
  simp only [exec, execSweepFire]
  split
  · exact .same s
  · rename_i r t ht
    have taken := Keeps.takeSweep ht
    split
    · exact .next (taken.trans (.reply none _ _ _ _))
    · rename_i i _
      split
      iterate 3 exact .next (taken.trans (.reply none _ _ _ _))
      all_goals exact .next ((taken.trans (.trigger t i)).trans (.reply none _ _ _ _))

/-- A STOP is held while its sweep is STOPPING (R40). -/
theorem Keeps.holdStop (s : State) (i : SweepNo) (ref : ReqRef) (stopping : (s.sweep i).state = .stopping) :
    Keeps none none s (s.setSweep i { s.sweep i with held := (s.sweep i).held ++ [ref] }) :=
  .setSweep s i _ rfl Iff.rfl (fun h => { h with held := fun _ => stopping }) id (fun _ _ hf => hf.congr rfl rfl rfl)

theorem State.endPass_state (s : State) (i : SweepNo) (old : List PosState) (d : SweepDef) :
    ((s.endPass i old d).sweep i).state = .idle ∨ ((s.endPass i old d).sweep i).state = .stopping := by
  rw [State.endPass_eq s i old d _ rfl]
  simp only [State.leaveNotice, State.answerWaiters_sweep, State.setSweep_sweep]
  split <;> simp

theorem Keeps.stopRunning {s : State} {i : SweepNo} {d : SweepDef} (ref : ReqRef)
    (running : (s.sweep i).state = .running) (hd : (s.sweep i).defn = some d) :
    Keeps none none s (s.stopRunning i d ref) := by
  have ended : Keeps none none s (s.endPass i (s.sweep i).positions d) :=
    .endPass _ running (fun _ _ _ => rfl) fun form before =>
      ⟨form.length_positions running hd, fun k => by
        simpa only [inHand_none, Nat.add_zero, Sweep.owed_eq_owedBy] using before k⟩
  simp only [State.stopRunning]
  split
  · exact ended.trans (.reply none _ _ _ _)
  · rename_i notIdle
    exact ended.trans (.holdStop _ i ref ((s.endPass_state i _ d).resolve_left notIdle))

theorem exec_sweepStop_keeps (s : State) : AnswersKeeping s (exec .sweepStop s) := by
  simp only [exec, execSweepStop]
  split
  · exact .same s
  · rename_i r t ht
    have taken := Keeps.takeSweep ht
    split
    · exact .next (taken.trans (.reply none _ _ _ _))
    · rename_i i _
      split
      · exact .next (taken.trans (.reply none _ _ _ _))
      · exact .next (taken.trans (.reply none _ _ _ _))
      · rename_i armed
        have left : Keeps none none t ((t.setSweep i { t.sweep i with state := .idle }).leave i) := by
          rw [State.setSweep_leave]
          exact .setSweep_leaveNotice t i _ rfl (by simp [armed])
            (fun h => h.goIdle armed _ h.missed) (fun f _ hf => Sweep.fits_idle_of_armed armed rfl hf)
        exact .next ((taken.trans left).trans (.reply none _ _ _ _))
      · rename_i running hd
        exact .next (taken.trans (.stopRunning _ running hd))
      · exact .next (taken.trans (.reply none _ _ _ _))
      · rename_i stopping
        exact .next (taken.trans (.holdStop t i _ stopping))

theorem exec_sweepGet_keeps (s : State) : AnswersKeeping s (exec .sweepGet s) := by
  simp only [exec, execSweepGet]
  split
  · exact .same s
  · rename_i r t ht
    split <;> exact .next ((Keeps.takeSweep ht).trans (.reply none _ _ _ _))

/-! ### Every command, every step -/

/-- Every command is answered by a next state, and keeps every law. -/
theorem exec_keeps (c : Instr) (s : State) : AnswersKeeping s (exec c s) :=
  match c with
  | .selAssertion => exec_selAssertion_keeps s
  | .exchangeEnd sdi => exec_exchangeEnd_keeps sdi s
  | .nrstAssertion => exec_nrstAssertion_keeps s
  | .nrstRelease => exec_nrstRelease_keeps s
  | .timeGet => exec_timeGet_keeps s
  | .probeSet => exec_probeSet_keeps s
  | .probeClear => exec_probeClear_keeps s
  | .probeGet => exec_probeGet_keeps s
  | .sweepSet => exec_sweepSet_keeps s
  | .sweepClear => exec_sweepClear_keeps s
  | .sweepArm => exec_sweepArm_keeps s
  | .sweepFire => exec_sweepFire_keeps s
  | .sweepStop => exec_sweepStop_keeps s
  | .sweepGet => exec_sweepGet_keeps s
  | .resultFetch => exec_resultFetch_keeps s
  | .portSet o => exec_portSet_keeps o s
  | .portGet o => exec_portGet_keeps o s
  | .portClear o => exec_portClear_keeps o s
  | .portXfer o => exec_portXfer_keeps o s
  | .hostEntryArrival p => exec_hostEntryArrival_keeps p s
  | .analogSet => exec_analogSet_keeps s
  | .analogGet => exec_analogGet_keeps s
  | .watchGet => exec_watchGet_keeps s
  | .watchReset => exec_watchReset_keeps s
  | .periodExpiry i => exec_periodExpiry_keeps i s
  | .settleExpiry p k => exec_settleExpiry_keeps p k s
  | .waitExpiry k => exec_waitExpiry_keeps k s
  | .stretchTimerExpiry p => exec_stretchTimerExpiry_keeps p s
  | .idleTimerExpiry => exec_idleTimerExpiry_keeps s
  | .arbiterTakesIssue r => exec_arbiterTakesIssue_keeps r s
  | .grant r => exec_grant_keeps r s
  | .endOfPreludePhase p => exec_endOfPreludePhase_keeps p s
  | .readPhaseEnd p data => exec_readPhaseEnd_keeps p data s
  | .addrNak p k => exec_addrNak_keeps p k s
  | .dataNak p k => exec_dataNak_keeps p k s
  | .contention p => exec_contention_keeps p s
  | .directTransferEnd p data => exec_directTransferEnd_keeps p data s
  | .clearEnd p pulses high => exec_clearEnd_keeps p pulses high s
  | .endOfWake => exec_endOfWake_keeps s
  | .endOfConversion v => exec_endOfConversion_keeps v s
  | .completion r => exec_completion_keeps r s
  | .completionCopy => exec_completionCopy_keeps s
  | .stretching p pulses => exec_stretching_keeps p pulses s
  | .sclRises p => exec_sclRises_keeps p s

/-- Every step keeps every law. -/
theorem step_keeps {s t : State} (h : step s = .next t) : Keeps none none s t := by
  rcases step_cases h with ⟨c, rest, n, hc⟩ | rfl
  · obtain ⟨u, hu, keeps⟩ := exec_keeps c { s with pending := rest, free := n }
    rw [hc] at hu
    cases hu
    exact (Keeps.queue_free none s rest n).trans keeps
  · exact .advance s

/-- Settles O6: what keeps every law keeps that of the link. -/
theorem linkLawKept : Obligations.LinkLawKept := by
  unfold Obligations.LinkLawKept
  exact fun s t law h => (step_keeps h).link law

/-- Settles O7. -/
theorem referenceLawKept : Obligations.ReferenceLawKept := by
  unfold Obligations.ReferenceLawKept
  exact fun s t law h => (step_keeps h).refs law

/-- Settles O9: each command moves the requests it concerns from one collection to another, so that the tally of a position
changes only where the position's state does. -/
theorem outstandingLawKept : Obligations.OutstandingLawKept := by
  unfold Obligations.OutstandingLawKept
  intro s t refs sweeps ports law h
  exact (outstandingWith_none t).1
    ((step_keeps h).outstanding refs (fun i => (sweeps i).form) ports ((outstandingWith_none s).2 law))

/-- Settles O10. -/
theorem waiterLawKept : Obligations.WaiterLawKept := by
  unfold Obligations.WaiterLawKept
  exact fun s t law h => (step_keeps h).waiters law

/-- Settles O11. -/
theorem portLawKept : Obligations.PortLawKept := by
  unfold Obligations.PortLawKept
  exact fun s t law h => (step_keeps h).ports law

/-- Settles O12. -/
theorem converterAndWatchLawsKept : Obligations.ConverterAndWatchLawsKept := by
  unfold Obligations.ConverterAndWatchLawsKept
  exact ⟨fun s t law h => (step_keeps h).conv law, fun s t law h => (step_keeps h).watch law⟩

/-! ### The ranges of a definition (Table 2-1) -/

/-- A SWEEP.SET for sweep 0 of source HOST whose payload ends after its list length: the length says 1, and no place
follows. -/
def shortSweepSet : Request :=
  { ref := { id := 0, seq := 0, replyKind := 0x90 }, kind := .sweepSet, payload := [0, 2, 0, 0, 0, 0, 0, 0, 0, 0, 0, 0, 0, 1] }

/-- The part after reset with that request in the Sweep Engine's list, about to be taken. -/
def shortSweepSetState : State :=
  { State.reset with pending := [.sweepSet], hand := { HandOff.reset with sweepEngine := [shortSweepSet] } }

/-- The definition that payload gives: its list is empty. -/
def emptyListDef : SweepDef :=
  { list := [], source := .host, passLimit := 0, overrun := .skip, faultPolicy := .continue, priority := 0, notify := false }

theorem readSweep_shortSweepSet : readSweep shortSweepSet.payload = .ok emptyListDef := by decide

theorem step_shortSweepSetState : ∃ t, step shortSweepSetState = .next t ∧ (t.sweep 0).defn = some emptyListDef := by
  refine ⟨_, rfl, ?_⟩
  rfl

/-- Refutes O8: the law does not say that the requests handed to the Sweep Engine have their full length (R176), and a
SWEEP.SET whose payload ends before its list is stored with an empty list, outside the ranges of Table 2-1. -/
theorem not_sweepLawKept : ¬ Obligations.SweepLawKept := by
  unfold Obligations.SweepLawKept
  intro kept
  obtain ⟨t, ht, hd⟩ := step_shortSweepSetState
  have before : ∀ i, SweepLaw (shortSweepSetState.sweep i) := fun i => (State.reset_sweep i).symm ▸ SweepLaw.reset
  have range := (kept _ t before ht 0).range _ hd
  exact absurd range (by decide)

end Sys2Proof.Machine
end

section
/-! PROOFS. The Host Link: bounds of the queue, ACK, RESEND and ATTN, the offer, the end of an exchange, and what becomes of a
host's frame (Chapters 10 and 11). -/

namespace Sys2Proof.Machine

/-! ### The queue (R161, R166) -/

/-- A queued frame is a reply, an event or a HELLO frame. -/
theorem length_eq_countP_kinds (l : List OutFrame) :
    l.length = l.countP OutFrame.isReply + l.countP OutFrame.isEvent + l.countP OutFrame.isHello := by
  induction l with
  | nil => rfl
  | cons f l ih =>
    have one : (if f.isReply then 1 else 0) + (if f.isEvent then 1 else 0) + (if f.isHello then 1 else 0) = 1 := by
      obtain ⟨kind, seq, payload, sent⟩ := f
      cases kind <;> rfl
    simp only [List.length_cons, List.countP_cons]
    omega

/-- Marks that stand below place 4 are at most four. -/
theorem countP_sent_le {l : Link} (h : LinkLaw l) : l.queue.countP OutFrame.sent ≤ 4 := by
  have beyond : (l.queue.drop 4).countP OutFrame.sent = 0 := by
    refine List.countP_eq_zero.2 fun f hf => ?_
    obtain ⟨k, hk⟩ := List.getElem?_of_mem hf
    rw [List.getElem?_drop] at hk
    intro sent
    have := (h.sentOldest (4 + k) (by simp [Link.sentAt, hk, sent])).1
    omega
  rw [← List.take_append_drop 4 l.queue, List.countP_append, beyond]
  have := List.countP_le_length (p := OutFrame.sent) (l := l.queue.take 4)
  rw [List.length_take] at this
  omega

/-- Settles O13: replies within the budget, events within their room, and no HELLO frame. -/
theorem queueBounds : Obligations.QueueBounds := by
  unfold Obligations.QueueBounds
  intro l h opened
  have kinds := length_eq_countP_kinds l.queue
  have hello := h.hello
  have budget := h.budget
  have events := h.eventRoom
  simp only [opened] at hello
  simp only [Link.use] at budget
  simp only [Link.events] at events
  exact ⟨by omega, countP_sent_le h, by omega⟩

/-- In OPEN no two places of the queue bear one sequence. -/
theorem LinkLaw.seq_injective {l : Link} (h : LinkLaw l) (opened : l.state = .opened) {j k : Nat} {f g : OutFrame}
    (hf : l.queue[j]? = some f) (hg : l.queue[k]? = some g) (same : f.seq = g.seq) : j = k := by
  have length := (queueBounds l h opened).1
  have hj := (List.getElem?_eq_some_iff.1 hf).1
  have hk := (List.getElem?_eq_some_iff.1 hg).1
  rw [h.consecutive opened j f hf, h.consecutive opened k g hg] at same
  have := congrArg BitVec.toNat (sub_right_injective same)
  simp only [BitVec.toNat_ofNat] at this
  omega

/-- An ACK that names a sent frame finds it at its place. -/
theorem Link.findIdx?_sent {l : Link} (h : LinkLaw l) (opened : l.state = .opened) {k : Nat} {f : OutFrame}
    (hf : l.queue[k]? = some f) (sent : f.sent = true) :
    l.queue.findIdx? (fun g => g.sent && g.seq == f.seq) = some k := by
  obtain ⟨hk, rfl⟩ := List.getElem?_eq_some_iff.1 hf
  refine List.findIdx?_eq_some_iff_getElem.2 ⟨hk, by simp [sent], fun j hj found => ?_⟩
  simp only [Bool.and_eq_true, beq_iff_eq] at found
  have := h.seq_injective opened (List.getElem?_eq_getElem (by omega)) hf found.2
  omega

theorem Link.attnDue_iff (l : Link) :
    l.attnDue = true ↔ l.state = .closed ∨ (l.state = .opened ∧ l.cursor < 4 ∧ l.cursor < l.queue.length) := by
  unfold Link.attnDue
  cases l.state <;> simp [offerable_iff]

/-- Settles O22: the sequences of the queue are distinct, so that an ACK names one place. -/
theorem acknowledgeResendAttention : Obligations.AcknowledgeResendAttention := by
  unfold Obligations.AcknowledgeResendAttention
  refine ⟨fun l ack h opened => ⟨fun k f hf sent hack => ?_, fun unnamed => ?_⟩, fun l => ?_, fun l => l.attnDue_iff⟩
  · subst hack
    rw [Link.acknowledge, Link.findIdx?_sent h opened hf sent]
  · have none : l.queue.findIdx? (fun f => f.sent && f.seq == ack) = none := by
      refine List.findIdx?_eq_none_iff.2 fun f hf => ?_
      cases sent : f.sent with
      | false => rfl
      | true => simpa using unnamed f hf sent
    rw [Link.acknowledge, none]
  · refine ⟨rfl, rfl, rfl, fun cursor attn => ?_, rfl⟩
    obtain ⟨state, e, t, queue, cursor', accepted, orphans, note, reason, exchange, sel, nrst, attn', id⟩ := l
    subst cursor
    exact congrArg (fun a => Link.mk state e t queue 0 accepted orphans note reason exchange sel nrst a id) attn.symm

/-! ### The offer (R157, R158, R181, R182) -/

theorem flagsByte_getLsbD (more busy crcErr : Bool) (k : Nat) : (flagsByte more busy crcErr).getLsbD k =
    ((k == 0 && more) || (k == 1 && busy) || (k == 2 && crcErr)) := by
  by_cases hk : k < 8
  · have low : ∀ (more busy crcErr : Bool) (k : Fin 8), (flagsByte more busy crcErr).getLsbD k =
        ((k.val == 0 && more) || (k.val == 1 && busy) || (k.val == 2 && crcErr)) := by decide
    exact low more busy crcErr ⟨k, hk⟩
  · have h0 : (k == 0) = false := beq_false_of_ne (by omega)
    have h1 : (k == 1) = false := beq_false_of_ne (by omega)
    have h2 : (k == 2) = false := beq_false_of_ne (by omega)
    rw [BitVec.getLsbD_of_ge _ _ (by omega), h0, h1, h2]
    rfl

theorem crc_append_singleton (l : List Byte) (b : Byte) : crc (l ++ [b]) = crcByte (crc l) b := by
  simp [crc, List.foldl_append]

/-- A byte in the upper half of the register. -/
theorem setWidth_shiftLeft_eq_append (b : Byte) : b.setWidth 16 <<< 8 = b ++ 0#8 := by
  refine BitVec.eq_of_toNat_eq ?_
  have := b.isLt
  rw [byte_append_toNat, BitVec.toNat_shiftLeft, BitVec.toNat_setWidth, Nat.shiftLeft_eq]
  simp only [BitVec.toNat_ofNat]
  omega

theorem crcShift_eq (c : Half) : crcShift c = if c.getLsbD 15 then (c <<< 1) ^^^ 0x1021 else c <<< 1 := rfl

/-- The register after `n` shifts. -/
theorem crcShift_iterate {r : Nat → Half} {n : Nat}
    (shift : ∀ k, k < n → r (k + 1) = if (r k).getLsbD 15 then (r k <<< 1) ^^^ 0x1021 else r k <<< 1) :
    crcShift^[n] (r 0) = r n := by
  induction n with
  | zero => rfl
  | succ n ih =>
    rw [Function.iterate_succ_apply', ih fun k hk => shift k (by omega), crcShift_eq, shift n (by omega)]

theorem Link.choose_closed {l : Link} (h : l.state = .closed) {f : OutFrame} {rest : List OutFrame}
    (hq : l.queue = f :: rest) : l.choose = { offer := l.compose f false, queued := false } := by
  simp [Link.choose, h, hq]

theorem Link.choose_offerable {l : Link} (h : l.state = .opened) (hc : l.cursor < 4) {f : OutFrame}
    (hf : l.queue[l.cursor]? = some f) : l.choose = { offer := l.compose f l.more, queued := true } := by
  have offerable : l.offerable l.cursor = true :=
    (offerable_iff l l.cursor).2 ⟨hc, (List.getElem?_eq_some_iff.1 hf).1⟩
  simp [Link.choose, h, offerable, hf]

theorem Link.choose_idle {l : Link} (h : l.state = .opened) (hc : 4 ≤ l.cursor ∨ l.queue.length ≤ l.cursor) :
    l.choose = { offer := l.composeIdle, queued := false } := by
  have offerable : l.offerable l.cursor = false := by
    rw [← Bool.not_eq_true, offerable_iff]
    omega
  simp [Link.choose, h, offerable]

/-- Settles O18: the offer by link state and cursor, the layout of a part frame, and the CRC register shift by shift. -/
theorem selAssertionFixesOffer : Obligations.SelAssertionFixesOffer := by
  unfold Obligations.SelAssertionFixesOffer
  refine ⟨fun s sel nrst => ⟨s.link.choose, ?_, fun f rest closed hq => ?_, fun f opened hc hf => ?_,
    fun opened hc => ?_⟩, fun kind seq ack flags payload check hcheck => ?_, flagsByte_getLsbD, rfl,
    fun l b r start shift => ?_⟩
  · simp only [exec, execSelAssertion, sel, nrst, Bool.false_eq_true, if_false]
    rfl
  · rw [Link.choose_closed closed hq]
    rfl
  · rw [Link.choose_offerable opened hc hf, Link.more, opened]
    rfl
  · rw [Link.choose_idle opened hc]
    rfl
  · subst hcheck
    rfl
  · rw [crc_append_singleton, crcByte, setWidth_shiftLeft_eq_append, ← start, crcShift_iterate shift]

/-- Settles O19: the four commands, each as its whole next state. -/
theorem nrstResetsAndHoldsOffExchanges : Obligations.NrstResetsAndHoldsOffExchanges := by
  unfold Obligations.NrstResetsAndHoldsOffExchanges
  intro s
  refine ⟨rfl, rfl, fun sel nrst => ?_, fun sdi sel ended => ?_⟩
  · simp only [exec, execSelAssertion, sel, nrst, Bool.false_eq_true, if_false, if_true]
    rfl
  · simp only [exec, execExchangeEnd, sel, if_true, State.setLink_link, ended]
    rfl

/-! ### The end of an exchange (R159, R160) -/

theorem readHostFrame_eq_none {sdi : List Byte}
    (h : readByte sdi 0 ≠ 0x5A ∨ 120 < readNat sdi 1 ∨ sdi.length < readNat sdi 1 + 8
      ∨ readHalf sdi (6 + readNat sdi 1) ≠ crc (places sdi 1 (5 + readNat sdi 1))) : readHostFrame sdi = none := by
  unfold readHostFrame
  refine if_neg fun ⟨sync, len, length, check⟩ => ?_
  rcases h with h | h | h | h
  · exact h sync
  · omega
  · omega
  · exact h check

/-- An offer that is not complete, or is no queued frame, moves nothing. -/
theorem State.offerSettled_incomplete (s : State) (x : Exchange) (sdi : List Byte)
    (h : x.queued = false ∨ sdi.length < x.offer.length) :
    s.offerSettled x sdi = { s with link := { s.link with sel := false, exchange := none } } := by
  have incomplete : ¬(x.queued = true ∧ x.offer.length ≤ sdi.length) := by
    rcases h with h | h
    · simp [h]
    · omega
  unfold State.offerSettled Link.settle
  rw [if_neg incomplete]
  rfl

/-- Settles O20: the offer first, then the frame that is not valid. -/
theorem offerSettlesAndInvalidFrameNoted : Obligations.OfferSettlesAndInvalidFrameNoted := by
  unfold Obligations.OfferSettlesAndInvalidFrameNoted
  refine ⟨fun s x sdi => ⟨s.offerSettled_incomplete x sdi, fun f queued complete hf => ?_⟩,
    fun s x sdi sel hx invalid => ?_, fun sdi => readHostFrame_eq_none⟩
  · unfold State.offerSettled Link.settle
    rw [if_pos ⟨queued, complete⟩]
    simp only [hf]
    rfl
  · rw [exec_exchangeEnd s x sdi sel hx, State.takeExchange, invalid]

/-! ### Frames in OPEN (R161 to R163) -/

/-- In OPEN a valid frame that is no OPEN frame is heard. -/
theorem State.takeExchange_opened {s : State} {sdi : List Byte} {f : HostFrame} (hr : readHostFrame sdi = some f)
    (opened : s.link.state = .opened) (other : ¬f.isOpen) : s.takeExchange sdi = s.takeFrame f := by
  unfold State.takeExchange
  rw [hr]
  simp only [opened]
  exact if_neg other

/-- A NULL frame, or one that is not acceptable, leaves its ACK and its RESEND flag. -/
theorem State.takeFrame_not_accepted {s : State} {f : HostFrame}
    (h : f.kind = kindNull ∨ f.seq ≠ (s.link.heard f).e ∨ 8 ≤ (s.link.heard f).use) :
    s.takeFrame f = s.setLink (s.link.heard f) := by
  unfold Link.heard at h ⊢
  simp only [State.takeFrame]
  split
  · rfl
  · rename_i notNull
    refine if_neg fun ⟨seq, room⟩ => ?_
    rcases h with h | h | h
    · exact notNull h
    · exact h seq
    · omega

/-- A frame of sequence E with room in the budget is accepted. -/
theorem State.takeFrame_accepted {s : State} {f : HostFrame} {l : Link} (hl : l = s.link.heard f)
    (notNull : f.kind ≠ kindNull) (seq : f.seq = l.e) (room : l.use < 8) :
    s.takeFrame f = (s.setLink l).accept f := by
  subst hl
  unfold Link.heard at seq room
  simp only [State.takeFrame]
  rw [if_neg notNull, if_pos ⟨seq, room⟩]
  rfl

/-- Settles O21: heard, and no more. -/
theorem framesHeardButNotAccepted : Obligations.FramesHeardButNotAccepted := by
  unfold Obligations.FramesHeardButNotAccepted
  refine ⟨fun s x sdi f sel hx hr null opened => ?_, fun s x sdi f sel hx hr other opened refused => ?_⟩
  · have other : ¬f.isOpen := fun h => by
      have := null.symm.trans h.1
      exact absurd this (by decide)
    rw [exec_exchangeEnd s x sdi sel hx, State.takeExchange_opened hr (by rwa [State.offerSettled_state]) other,
      State.takeFrame_not_accepted (.inl null)]
  · rw [exec_exchangeEnd s x sdi sel hx, State.takeExchange_opened hr (by rwa [State.offerSettled_state]) other,
      State.takeFrame_not_accepted (.inr refused)]

/-- The end of an exchange in OPEN with an acceptable frame. -/
theorem exec_exchangeEnd_accepted {s : State} {x : Exchange} {sdi : List Byte} {f : HostFrame} {l : Link}
    (sel : s.link.sel = true) (hx : s.link.exchange = some x) (hr : readHostFrame sdi = some f)
    (opened : s.link.state = .opened) (hl : l = (s.offerSettled x sdi).link.heard f) (seq : f.seq = l.e)
    (room : l.use < 8) (notNull : f.kind ≠ kindNull) (other : ¬f.isOpen) :
    exec (.exchangeEnd sdi) s = .next (((s.offerSettled x sdi).setLink l).accept f) := by
  rw [exec_exchangeEnd s x sdi sel hx, State.takeExchange_opened hr (by rwa [State.offerSettled_state]) other,
    State.takeFrame_accepted hl notNull seq room]

/-! ### Request kinds (R174, R176, Table 11-1) -/

theorem ReqKind.ofCode_code (k : ReqKind) : ReqKind.ofCode k.code = some k := by
  cases k <;> rfl

/-- The link's own kinds, and NULL, are no request kinds of an owner. -/
theorem ReqKind.code_ne_link (k : ReqKind) : k.code ≠ kindNull ∧ k.code ≠ kindOpen ∧ k.code ≠ kindDeviceReset := by
  cases k <;> decide

theorem ReqKind.ofCode_eq_none {c : Byte} (h : ∀ k : ReqKind, c ≠ k.code) : ReqKind.ofCode c = none :=
  List.find?_eq_none.2 fun k _ => by simpa using (h k).symm

/-- A request of a known kind, with the reference the link gives it. -/
theorem State.accept_known {s : State} {f : HostFrame} {k : ReqKind} {ref : ReqRef} (hk : f.kind = k.code)
    (hr : ref = { id := s.link.nextId, seq := f.seq, replyKind := 0x80 + f.kind }) :
    s.accept f = if f.payload.length = k.len
      then (s.setLink (s.link.accept ref)).handOff { ref := ref, kind := k, payload := f.payload }
      else (s.setLink (s.link.accept ref)).reply ref .badFrame [] := by
  subst hr
  have known : ReqKind.ofCode f.kind = some k := hk ▸ k.ofCode_code
  simp only [State.accept, known, Option.isSome_some, Bool.true_or, if_true, replyKind]

/-- Settles O23: an acceptable request of a known kind, the owner of each kind, and Table 11-1. -/
theorem requestAcceptedAndRouted : Obligations.RequestAcceptedAndRouted := by
  unfold Obligations.RequestAcceptedAndRouted
  refine ⟨fun s x sdi f l k ref sel hx hr opened hl seq room hk len href => ?_, fun s r => ?_, rfl⟩
  · obtain ⟨notNull, notOpen, _⟩ := k.code_ne_link
    rw [exec_exchangeEnd_accepted sel hx hr opened hl seq room (hk ▸ notNull) (fun h => notOpen (hk ▸ h.1)),
      State.accept_known (ref := ref) hk href, if_pos len]
    rfl
  · have byOwner : ∀ o, r.kind.owner = o → s.handOff r = match o with
        | .timeBase => { s with hand := { s.hand with timeBase := s.hand.timeBase ++ [r] } }
        | .probeTable => { s with hand := { s.hand with probeTable := s.hand.probeTable ++ [r] } }
        | .sweepEngine => { s with hand := { s.hand with sweepEngine := s.hand.sweepEngine ++ [r] } }
        | .resultStore => { s with hand := { s.hand with resultStore := s.hand.resultStore ++ [r] } }
        | .ports => { s with hand := s.hand.setPorts (portOwnerOf r.payload)
                              (s.hand.ports (portOwnerOf r.payload) ++ [r]) }
        | .converter => { s with hand := { s.hand with converter := s.hand.converter ++ [r] } }
        | .watchUnit => { s with inbox := s.inbox ++ [.request r] } := by
      rintro o rfl
      simp only [State.handOff]
      cases r.kind.owner <;> rfl
    have ofKinds : ∀ {l : List ReqKind} {o : Owner}, r.kind ∈ l → (∀ k, k ∈ l → k.owner = o) → r.kind.owner = o :=
      fun hm h => h _ hm
    refine ⟨fun h => byOwner .timeBase (h ▸ rfl), fun h => byOwner .probeTable (ofKinds h (by decide)),
      fun h => byOwner .sweepEngine (ofKinds h (by decide)), fun h => byOwner .resultStore (h ▸ rfl),
      fun h => ⟨fun p hp => ?_, fun above => ?_⟩, fun h => byOwner .converter (ofKinds h (by decide)),
      fun h => byOwner .watchUnit (ofKinds h (by decide))⟩
    · have owner : portOwnerOf r.payload = .tw p := by simp [portOwnerOf, hp]
      rw [byOwner .ports (ofKinds h (by decide)), owner]
      rfl
    · have owner : portOwnerOf r.payload = .block := by
        rw [portOwnerOf, dif_neg (by omega)]
      rw [byOwner .ports (ofKinds h (by decide)), owner]
      rfl

/-! ### Replies (R165) -/

theorem holds_of_mem {l : List ReqRef} {ref : ReqRef} (h : ref ∈ l) : holds l ref = true :=
  List.any_eq_true.2 ⟨ref, h, beq_self_eq_true _⟩

theorem holds_eq_false {l : List ReqRef} {ref : ReqRef} (h : ∀ r, r ∈ l → r.id ≠ ref.id) : holds l ref = false :=
  List.any_eq_false.2 fun r hr => by simpa using h r hr

/-- The first request of that identity leaves its set. -/
theorem dropRef_append {before after : List ReqRef} {ref : ReqRef} (h : ∀ r, r ∈ before → r.id ≠ ref.id) :
    dropRef (before ++ ref :: after) ref = before ++ after := by
  rw [dropRef, List.eraseP_append_right _ fun r hr => by simpa using h r hr, List.eraseP_cons_of_pos (by simp)]

theorem Link.reply_accepted {l : Link} {ref : ReqRef} {before after : List ReqRef}
    (ha : l.accepted = before ++ ref :: after) (hb : ∀ r, r ∈ before → r.id ≠ ref.id) (body : List Byte) :
    l.reply ref body = Link.append { l with accepted := before ++ after } (.reply ref.replyKind) (ref.seq :: body) := by
  have held : holds l.accepted ref = true := holds_of_mem (by simp [ha])
  rw [Link.reply, if_pos held, ha, dropRef_append hb]

/-- Settles O28: the reply in both cases; the codes are the tables'. -/
theorem replyAppendedOrDiscarded : Obligations.ReplyAppendedOrDiscarded := by
  unfold Obligations.ReplyAppendedOrDiscarded
  refine ⟨fun s ref status items => ⟨fun before after ha hb => ?_, fun before after hn ho hb => ?_⟩, rfl, rfl,
    fun _ => rfl, rfl, rfl, rfl, rfl, rfl, rfl, rfl, rfl, fun _ _ _ => rfl, rfl, rfl, rfl, rfl, rfl⟩
  · rw [State.reply, Link.reply_accepted ha hb]
    rfl
  · have none : ¬holds s.link.accepted ref = true := by rw [holds_eq_false hn]; decide
    rw [State.reply, Link.reply, if_neg none, ho, dropRef_append hb]
    rfl

/-- A request just accepted is answered at once: it leaves the accepted set again. -/
theorem State.reply_accept {s : State} {ref : ReqRef} (fresh : ∀ r, r ∈ s.link.accepted → r.id ≠ ref.id)
    (status : Status) (items : List Byte) :
    (s.setLink (s.link.accept ref)).reply ref status items = s.setLink (Link.refresh { s.link with
      e := s.link.e + 1, nextId := s.link.nextId + 1, t := s.link.t + 1
      queue := s.link.queue ++ [{ kind := .reply ref.replyKind, seq := s.link.t
                                  payload := ref.seq :: status.code :: items, sent := false }] }) := by
  rw [State.reply, State.setLink_link, Link.reply_accepted (before := s.link.accepted) (after := []) rfl fresh]
  simp only [List.append_nil]
  rfl

/-- Settles O24: the three refusals of the link, each a reply to a request accepted just before. -/
theorem linkRefusesAtOnce : Obligations.LinkRefusesAtOnce := by
  unfold Obligations.LinkRefusesAtOnce
  intro s x sdi f l kind body sel hx hr opened hl seq room fresh refusal
  obtain ⟨t, ht⟩ : ∃ t, t = (s.offerSettled x sdi).setLink l := ⟨_, rfl⟩
  have fresh' : ∀ r, r ∈ t.link.accepted → r.id ≠ t.link.nextId := by rw [ht]; exact fresh
  have accepted : f.kind ≠ kindNull → ¬f.isOpen → exec (.exchangeEnd sdi) s = .next (t.accept f) := by
    rw [ht]
    exact exec_exchangeEnd_accepted sel hx hr opened hl seq room
  have settled : ∀ m, (s.offerSettled x sdi).setLink m = t.setLink m := fun m => by rw [ht]; rfl
  have link : t.link = l := by rw [ht]; rfl
  rw [settled, ← link]
  rcases refusal with ⟨k, hk, len, rfl, rfl⟩ | ⟨own, payload, rfl, rfl⟩ | ⟨unknown, others, rfl, rfl⟩
  · obtain ⟨notNull, notOpen, _⟩ := k.code_ne_link
    rw [accepted (hk ▸ notNull) (fun h => notOpen (hk ▸ h.1)), State.accept_known hk rfl, if_neg len,
      State.reply_accept fresh']
    rfl
  · have known : ReqKind.ofCode f.kind = none := by rcases own with e | e <;> rw [e] <;> rfl
    have linkKind : (f.kind == kindOpen || f.kind == kindDeviceReset) = true := by
      rcases own with e | e <;> rw [e] <;> rfl
    rw [accepted (by rcases own with e | e <;> rw [e] <;> decide) (fun h => payload h.2)]
    simp only [State.accept, known, linkKind, Bool.or_true, if_true]
    rw [if_neg fun h => payload h.2, State.reply_accept fresh']
    rfl
  · have known := ReqKind.ofCode_eq_none unknown
    simp only [List.mem_cons, List.not_mem_nil, or_false, not_or] at others
    obtain ⟨notNull, notOpen, notReset⟩ := others
    have linkKind : (f.kind == kindOpen || f.kind == kindDeviceReset) = false := by
      rw [Bool.or_eq_false_iff]
      exact ⟨beq_false_of_ne notOpen, beq_false_of_ne notReset⟩
    rw [accepted notNull (fun h => notOpen h.1)]
    simp only [State.accept, known, linkKind, Option.isSome_none, Bool.or_self, Bool.false_eq_true, if_false]
    rw [if_neg fun h => notReset h.1, State.reply_accept fresh']
    rfl

/-! ### OPEN and DEVICE.RESET (R168 to R173) -/

/-- The link after an OPEN frame, whole. -/
theorem Link.start_eq (l : Link) (seq : Byte) (reason : Reason) (orphans : Nat) :
    l.start seq reason orphans = { l with
      state := .opened, e := seq + 1, t := 1, cursor := 0, attn := true
      queue := [OutFrame.openReply seq reason.code (BitVec.ofNat 8 orphans)] } := rfl

theorem State.takeExchange_closed_open {s : State} {sdi : List Byte} {f : HostFrame} (hr : readHostFrame sdi = some f)
    (closed : s.link.state = .closed) (isOpen : f.isOpen) :
    s.takeExchange sdi = s.setLink (s.link.start f.seq s.link.reason 0) := by
  unfold State.takeExchange
  rw [hr]
  simp only [closed]
  exact if_pos isOpen

theorem State.takeExchange_closed {s : State} {sdi : List Byte} {f : HostFrame} (hr : readHostFrame sdi = some f)
    (closed : s.link.state = .closed) (other : ¬f.isOpen) : s.takeExchange sdi = s := by
  unfold State.takeExchange
  rw [hr]
  simp only [closed]
  exact if_neg other

theorem State.takeExchange_restart {s : State} {sdi : List Byte} {f : HostFrame} (hr : readHostFrame sdi = some f)
    (opened : s.link.state = .opened) (isOpen : f.isOpen) : s.takeExchange sdi = s.restart f.seq := by
  unfold State.takeExchange
  rw [hr]
  simp only [opened]
  exact if_pos isOpen

/-- Settles O25: in CLOSED no offer is a queued frame, so nothing is settled. -/
theorem closedLinkAttendsToOpenOnly : Obligations.ClosedLinkAttendsToOpenOnly := by
  unfold Obligations.ClosedLinkAttendsToOpenOnly
  intro s x sdi f law sel hx hr closed
  have notQueued : x.queued = false := by
    cases hq : x.queued with
    | false => rfl
    | true => exact absurd ((law.offered x hx hq).1.symm.trans closed) (by decide)
  have settled := s.offerSettled_incomplete x sdi (.inl notQueued)
  have closed' : (s.offerSettled x sdi).link.state = .closed := by rw [settled]; exact closed
  rw [exec_exchangeEnd s x sdi sel hx]
  refine ⟨fun isOpen => ?_, fun other => ?_⟩
  · rw [State.takeExchange_closed_open hr closed' isOpen, settled, Link.start_eq]
    rfl
  · rw [State.takeExchange_closed hr closed' other, settled]

/-- Settling an offer changes no frame's kind. -/
theorem Link.settle_events (l : Link) (x : Exchange) (n : Nat) :
    (l.settle x n).queue.countP OutFrame.isEvent = l.queue.countP OutFrame.isEvent := by
  unfold Link.settle
  simp only
  split
  · split
    · rename_i f hf
      obtain ⟨hc, rfl⟩ := List.getElem?_eq_some_iff.1 hf
      have same : OutFrame.isEvent { l.queue[l.cursor] with sent := true } = l.queue[l.cursor].isEvent := rfl
      simp only [Link.refresh_queue, List.countP_set hc, same]
      have : l.queue[l.cursor].isEvent = true → 0 < l.queue.countP OutFrame.isEvent :=
        fun h => List.countP_pos_iff.2 ⟨_, List.getElem_mem hc, h⟩
      split <;> simp_all
    · rfl
  · rfl

/-- A restart reads nothing of the settled link but its sets and its event frames. -/
theorem Link.settle_restart (l : Link) (x : Exchange) (n : Nat) (seq : Byte) (reason : Reason) (orphans : Nat)
    (accepted others : List ReqRef) :
    Link.start { l.settle x n with accepted := accepted, orphans := others } seq reason orphans
      = Link.start { l with exchange := none, accepted := accepted, orphans := others } seq reason orphans := by
  unfold Link.settle
  simp only
  split
  · split <;> rfl
  · rfl

/-- Settles O26: the restart after the offer is settled. -/
theorem openRestartsLink : Obligations.OpenRestartsLink := by
  unfold Obligations.OpenRestartsLink
  intro s x sdi f moved sel hx hr isOpen opened hm
  have orphans : (s.offerSettled x sdi).newOrphans = moved := by
    rw [hm]
    simp only [State.newOrphans, State.offerSettled, State.setLink_link, State.setLink_waiters, Link.settle_accepted]
    refine List.filter_congr fun r _ => ?_
    simp only [holds, List.any_map, List.not_any_eq_all_not, Function.comp_def]
    rfl
  have dropped : (s.offerSettled x sdi).link.events = s.link.queue.countP OutFrame.isEvent :=
    Link.settle_events { s.link with sel := false } x sdi.length
  rw [exec_exchangeEnd s x sdi sel hx,
    State.takeExchange_restart hr (by rwa [State.offerSettled_state]) isOpen, State.restart, orphans, dropped]
  simp only [State.offerSettled, State.setLink_link, Link.settle_restart, Link.settle_orphans]
  simp only [Link.start_eq, satAdd, opened]
  rfl

/-- Settles O27: the request is accepted, and the part reset. -/
theorem deviceResetRequest : Obligations.DeviceResetRequest := by
  unfold Obligations.DeviceResetRequest
  intro s x sdi f sel hx hr kind payload opened seq room
  rw [exec_exchangeEnd_accepted sel hx hr opened rfl seq room (kind ▸ by decide)
    (fun h => absurd (kind.symm.trans h.1) (by decide))]
  have known : ReqKind.ofCode f.kind = none := by rw [kind]; rfl
  simp only [State.accept, known]
  rw [if_pos ⟨kind, payload⟩]
  have pin : ((s.offerSettled x sdi).link.heard f).sel = false := by
    simp only [Link.heard, Link.resend, Link.acknowledge, State.offerSettled, State.setLink_link, Link.settle]
    split <;> split <;> (try split) <;> (try split) <;> rfl
  simp only [State.deviceReset, State.setLink_link, Link.accept, pin]
  rfl

end Sys2Proof.Machine
end

section
/-! PROOFS. Bytes: what stands at the places of a list of bytes, the host frame read back (Table 11-3), the payloads of
PROBE.SET and SWEEP.SET against the records that replies carry (Tables 11-5 and 11-6), and the sequences on the two-wire
bus (Tables 6-2 and 6-3). -/

namespace Sys2Proof.Machine

/-! ### Bytes and fields -/

theorem toNat_byteOf {n : Nat} (h : n < 256) : (byteOf n).toNat = n :=
  Nat.mod_eq_of_lt h

theorem byteOf_toNat (b : Byte) : byteOf b.toNat = b :=
  BitVec.eq_of_toNat_eq (toNat_byteOf b.isLt)

theorem be16_append (a b : Byte) : be16 (a ++ b) = [a, b] := by
  have ha := a.isLt
  have hb := b.isLt
  have high : (a ++ b).extractLsb' 8 8 = a := by
    refine BitVec.eq_of_toNat_eq ?_
    rw [BitVec.extractLsb'_toNat, byte_append_toNat, Nat.shiftRight_eq_div_pow]
    omega
  have low : (a ++ b).extractLsb' 0 8 = b := by
    refine BitVec.eq_of_toNat_eq ?_
    rw [BitVec.extractLsb'_toNat, byte_append_toNat, Nat.shiftRight_eq_div_pow]
    omega
  rw [be16, high, low]

theorem half_eq_append (w : Half) : w.extractLsb' 8 8 ++ w.extractLsb' 0 8 = w := by
  have := w.isLt
  refine BitVec.eq_of_toNat_eq ?_
  rw [byte_append_toNat, BitVec.extractLsb'_toNat, BitVec.extractLsb'_toNat, Nat.shiftRight_eq_div_pow,
    Nat.shiftRight_eq_div_pow]
  omega

theorem half_append_toNat (a b : Half) : (a ++ b).toNat = 65536 * a.toNat + b.toNat := by
  rw [BitVec.toNat_append, ← Nat.shiftLeft_add_eq_or_of_lt b.isLt, Nat.shiftLeft_eq, Nat.mul_comm]

theorem be32_append (a b : Half) : be32 (a ++ b) = be16 a ++ be16 b := by
  have ha := a.isLt
  have hb := b.isLt
  have field : ∀ n k (c : Half), (a ++ b).toNat / 2 ^ n % 256 = c.toNat / 2 ^ k % 256 →
      (a ++ b).extractLsb' n 8 = c.extractLsb' k 8 := fun n k c e => by
    refine BitVec.eq_of_toNat_eq ?_
    rw [BitVec.extractLsb'_toNat, BitVec.extractLsb'_toNat, Nat.shiftRight_eq_div_pow, Nat.shiftRight_eq_div_pow]
    exact e
  rw [be32, field 24 8 a (by rw [half_append_toNat]; omega), field 16 0 a (by rw [half_append_toNat]; omega),
    field 8 8 b (by rw [half_append_toNat]; omega), field 0 0 b (by rw [half_append_toNat]; omega)]
  rfl

theorem word_eq_append (w : Word) : (w.extractLsb' 24 8 ++ w.extractLsb' 16 8) ++ (w.extractLsb' 8 8 ++ w.extractLsb' 0 8)
    = w := by
  have range := w.isLt
  have value := half_append_toNat (w.extractLsb' 24 8 ++ w.extractLsb' 16 8) (w.extractLsb' 8 8 ++ w.extractLsb' 0 8)
  rw [byte_append_toNat, byte_append_toNat] at value
  simp only [BitVec.extractLsb'_toNat, Nat.shiftRight_eq_div_pow] at value
  exact BitVec.eq_of_toNat_eq (value.trans (by omega))

/-! ### The places of a list of bytes -/

theorem readByte_append (l m : List Byte) (k : Nat) : readByte (l ++ m) (l.length + k) = readByte m k := by
  simp [readByte, List.getD_eq_getElem?_getD, List.getElem?_append_right]

theorem places_append (l m : List Byte) (k n : Nat) : places (l ++ m) (l.length + k) n = places m k n := by
  simp [places, List.drop_append, List.drop_eq_nil_of_le]

theorem places_append_left (l m : List Byte) : places (l ++ m) 0 l.length = l := by
  simp [places]

theorem places_all (p : List Byte) : places p 0 p.length = p := by
  simp [places]

theorem places_add (p : List Byte) (k m n : Nat) : places p k (m + n) = places p k m ++ places p (k + m) n := by
  rw [places, List.take_add, List.drop_drop]
  rfl

theorem length_places {p : List Byte} {k n : Nat} (h : k + n ≤ p.length) : (places p k n).length = n := by
  simp [places]
  omega

theorem places_one {p : List Byte} {k : Nat} (h : k < p.length) : places p k 1 = [readByte p k] := by
  rw [places, List.drop_eq_getElem_cons h, readByte, List.getD_eq_getElem _ _ h]
  rfl

theorem places_half {p : List Byte} {k : Nat} (h : k + 1 < p.length) : places p k 2 = be16 (readHalf p k) := by
  rw [places_add p k 1 1, places_one (by omega), places_one h, readHalf, be16_append]
  rfl

theorem places_word {p : List Byte} {k : Nat} (h : k + 3 < p.length) : places p k 4 = be32 (readWord p k) := by
  rw [places_add p k 2 2, places_half (by omega), places_half (by omega), readWord, be32_append]

/-! ### Unused places -/

theorem eq_replicate_of_allZero {l : List Byte} (h : allZero l = true) : l = List.replicate l.length 0 := by
  refine List.eq_replicate_iff.2 ⟨rfl, fun b hb => ?_⟩
  simpa using List.all_eq_true.1 h b hb

theorem allZero_replicate (n : Nat) : allZero (List.replicate n 0) = true :=
  List.all_eq_true.2 fun b hb => by rw [List.eq_of_mem_replicate hb]; rfl

theorem take_padTo (n : Nat) (l : List Byte) : (padTo n l).take l.length = l := by
  simp [padTo]

theorem drop_padTo (n : Nat) (l : List Byte) : allZero ((padTo n l).drop l.length) = true := by
  simpa [padTo] using allZero_replicate (n - l.length)

theorem length_padTo {n : Nat} {l : List Byte} (h : l.length ≤ n) : (padTo n l).length = n := by
  simp [padTo]
  omega

/-- Places of which the unused ones are zero are the used ones, padded. -/
theorem padTo_take {l : List Byte} {m : Nat} (h : m ≤ l.length) (zero : allZero (l.drop m) = true) :
    padTo l.length (l.take m) = l := by
  have used : (l.take m).length = m := by rw [List.length_take]; omega
  have unused := eq_replicate_of_allZero zero
  rw [List.length_drop] at unused
  rw [padTo, used, ← unused, List.take_append_drop]

/-! ### The host frame (R160, R181, R182) -/

/-- Settles O14: the payload stands at its 6 to 6 + LEN, the check after it. -/
theorem hostFrameReadsBack : Obligations.HostFrameReadsBack := by
  unfold Obligations.HostFrameReadsBack
  intro kind seq ack flags payload fill short
  obtain ⟨head, hhead⟩ : ∃ head, head = [byteOf payload.length, kind, seq, ack, flags] := ⟨_, rfl⟩
  obtain ⟨check, hcheck⟩ : ∃ check, check = crc (head ++ payload) := ⟨_, rfl⟩
  have frame : hostFrameBytes kind seq ack flags payload ++ fill
      = ([0x5A] ++ head) ++ (payload ++ (be16 check ++ fill)) := by
    rw [hcheck, hhead]
    simp [hostFrameBytes]
  have len : readNat (hostFrameBytes kind seq ack flags payload ++ fill) 1 = payload.length := toNat_byteOf (by omega)
  have body : places (hostFrameBytes kind seq ack flags payload ++ fill) 1 (5 + payload.length) = head ++ payload := by
    have := places_append [0x5A] (head ++ (payload ++ (be16 check ++ fill))) 0 (5 + payload.length)
    rw [← List.append_assoc, ← frame] at this
    rw [show (1 : Nat) = [(0x5A : Byte)].length + 0 from rfl, this, ← List.append_assoc]
    have size : 5 + payload.length = (head ++ payload).length := by rw [hhead, List.length_append]; rfl
    rw [size, places_append_left]
  have data : places (hostFrameBytes kind seq ack flags payload ++ fill) 6 payload.length = payload := by
    have := places_append ([0x5A] ++ head) (payload ++ (be16 check ++ fill)) 0 payload.length
    rw [← frame, places_append_left] at this
    exact (congrArg (fun k => places _ k payload.length) (by rw [hhead]; rfl)).trans this
  have crcAt : readHalf (hostFrameBytes kind seq ack flags payload ++ fill) (6 + payload.length) = check := by
    have size : ([0x5A] ++ head ++ payload).length = 6 + payload.length := by
      rw [hhead, List.length_append]; rfl
    have at' := readByte_append ([0x5A] ++ head ++ payload) (be16 check ++ fill)
    rw [List.append_assoc, ← frame, size] at at'
    rw [readHalf, show 6 + payload.length = 6 + payload.length + 0 from rfl, at', Nat.add_assoc, at']
    exact half_eq_append check
  have length : readNat (hostFrameBytes kind seq ack flags payload ++ fill) 1 + 8
      ≤ (hostFrameBytes kind seq ack flags payload ++ fill).length := by
    rw [len, frame, hhead]
    simp [be16]
  unfold readHostFrame
  simp only
  rw [if_pos ⟨rfl, by omega, length, by rw [len, crcAt, body, hcheck]⟩, len, data]
  rfl

end Sys2Proof.Machine
end

section
/-! PROOFS. The payloads of PROBE.SET and SWEEP.SET against the records that replies carry (Tables 11-5 and 11-6). -/

namespace Sys2Proof.Machine

/-! ### What a PROBE.SET payload holds (Table 1-2) -/

theorem readBody_eq_some {p : List Byte} {b : ProbeBody} : readBody p = some b ↔
    (readByte p 1 = 1 ∧ twoWireOk p = true ∧ b = .twoWire (twoWireOf p))
      ∨ (readByte p 1 = 2 ∧ analogOk p = true ∧ b = .analog (analogOf p)) := by
  unfold readBody
  grind

theorem readProbe_eq_some {p : List Byte} {r : ProbeRecord} : readProbe p = some r ↔
    readBody p = some r.body ∧ r.faultLimit = readNat p 2 ∧ (1 ≤ r.faultLimit ∧ r.faultLimit ≤ 15)
      ∧ ((readByte p 20 = 0 ∧ allZero (places p 21 14) = true ∧ r.watch = none)
        ∨ (readByte p 20 = 1 ∧ watchOk r.dataLength p = true ∧ r.watch = some (watchOf p))) := by
  obtain ⟨body, limit, watch⟩ := r
  have length : ∀ l w, ProbeRecord.dataLength ⟨body, l, w⟩ = ProbeRecord.dataLength ⟨body, limit, watch⟩ := fun _ _ => rfl
  unfold readProbe
  cases hb : readBody p with
  | none => simp
  | some b => grind

theorem addressOk_iff {mode : Byte} {addr : Half} : addressOk mode addr = true ↔
    (mode = 7 ∧ addr.toNat ≤ 127) ∨ (mode = 10 ∧ addr.toNat ≤ 1023) := by
  simp [addressOk]

theorem twoWireOk_iff {p : List Byte} : twoWireOk p = true ↔
    readNat p 3 ≤ 2 ∧ addressOk (readByte p 4) (readHalf p 5) = true
      ∧ (readNat p 7 ≤ 2 ∧ allZero ((places p 8 2).drop (readNat p 7)) = true)
      ∧ (readNat p 10 ≤ 4 ∧ allZero ((places p 11 4).drop (readNat p 10)) = true)
      ∧ (readNat p 10 = 0 → readByte p 15 = 0)
      ∧ (1 ≤ readNat p 16 ∧ readNat p 16 ≤ 8) ∧ readNat p 17 ≤ 3 ∧ allZero (places p 18 2) = true := by
  simp only [twoWireOk, Bool.and_eq_true, decide_eq_true_eq, Bool.or_eq_true, beq_iff_eq, and_assoc, ne_eq,
    ← imp_iff_not_or]

theorem analogOk_iff {p : List Byte} : analogOk p = true ↔
    readNat p 18 ≤ 9 ∧ [1, 2, 4, 8, 16].contains (readNat p 19) = true ∧ allZero (places p 3 15) = true := by
  simp only [analogOk, Bool.and_eq_true, decide_eq_true_eq, and_assoc]

theorem watchOk_iff {n : Nat} {p : List Byte} : watchOk n p = true ↔
    readNat p 21 ≤ 7 ∧ (readNat p 22 = 1 ∨ readNat p 22 = 2) ∧ readNat p 23 ≤ 1 ∧ readNat p 24 ≤ 1
      ∧ (readWord p 25).toInt ≤ (readWord p 29).toInt ∧ readNat p 21 + readNat p 22 ≤ n := by
  simp only [watchOk, Bool.and_eq_true, decide_eq_true_eq, and_assoc]

/-! ### Ranges (Table 1-1) -/

theorem TwoWire.inRange_iff {d : TwoWire} : d.inRange = true ↔
    (d.mode = .seven → d.addr.toNat ≤ 127) ∧ d.index.length ≤ 2
      ∧ (∀ q, d.prelude = some q → 1 ≤ q.bytes.length ∧ q.bytes.length ≤ 4)
      ∧ (1 ≤ d.readLen ∧ d.readLen ≤ 8) ∧ d.retries ≤ 3 := by
  unfold TwoWire.inRange
  cases d.prelude <;> grind

theorem WatchPart.inRange_iff {w : WatchPart} {n : Nat} : w.inRange n = true ↔
    w.offset ≤ 7 ∧ (w.width = 1 ∨ w.width = 2) ∧ w.low.toInt ≤ w.high.toInt ∧ w.offset + w.width ≤ n := by
  simp only [WatchPart.inRange, Bool.and_eq_true, decide_eq_true_eq, and_assoc]

/-! ### A record is written and read back (R15, R184) -/

/-- The fields of a TWO_WIRE record stand at their places, whatever stands before and after them. -/
theorem twoWire_bodyBytes {d : TwoWire} (h : d.inRange = true) (a b c : Byte) (rest : List Byte) :
    twoWireOk (a :: b :: c :: (bodyBytes (.twoWire d) ++ rest)) = true
      ∧ twoWireOf (a :: b :: c :: (bodyBytes (.twoWire d) ++ rest)) = d := by
  obtain ⟨mode, index, prelude, readLen, retries⟩ := TwoWire.inRange_iff.1 h
  obtain ⟨pre, hpre⟩ : ∃ pre, pre = d.prelude.getD { bytes := [], settle := 0 } := ⟨_, rfl⟩
  have short : pre.bytes.length ≤ 4 := by
    rw [hpre]
    cases hq : d.prelude with
    | none => exact Nat.zero_le 4
    | some q => exact (prelude q hq).2
  have addr : (d.addr.setWidth 16).toNat = d.addr.toNat := by
    rw [BitVec.toNat_setWidth]
    have := d.addr.isLt
    omega
  obtain ⟨i0, i1, hi⟩ := List.length_eq_two.1 (length_padTo index)
  have hp := length_padTo short
  obtain ⟨q0, q1, q2, q3, hq⟩ : ∃ q0 q1 q2 q3, padTo 4 pre.bytes = [q0, q1, q2, q3] := by
    match padTo 4 pre.bytes, hp with
    | [q0, q1, q2, q3], _ => exact ⟨q0, q1, q2, q3, rfl⟩
  obtain ⟨p, p_eq⟩ : ∃ p, p = a :: b :: c :: (bodyBytes (.twoWire d) ++ rest) := ⟨_, rfl⟩
  rw [← p_eq]
  simp only [bodyBytes, ← hpre, hi, hq] at p_eq
  have fields : readNat p 3 = d.port.val ∧ readByte p 4 = d.mode.code ∧ readHalf p 5 = d.addr.setWidth 16
      ∧ readNat p 7 = d.index.length ∧ places p 8 2 = padTo 2 d.index ∧ readNat p 10 = pre.bytes.length
      ∧ places p 11 4 = padTo 4 pre.bytes ∧ readByte p 15 = pre.settle ∧ readNat p 16 = d.readLen
      ∧ readNat p 17 = d.retries ∧ places p 18 2 = [0, 0] := by
    rw [hi, hq, p_eq]
    exact ⟨toNat_byteOf (by omega), rfl, half_eq_append _, toNat_byteOf (by omega), rfl, toNat_byteOf (by omega), rfl, rfl,
      toNat_byteOf (by omega), toNat_byteOf (by omega), rfl⟩
  obtain ⟨f3, f4, f5, f7, f8, f10, f11, f15, f16, f17, f18⟩ := fields
  constructor
  · rw [twoWireOk_iff, f3, f4, f5, f7, f8, f10, f11, f15, f16, f17, f18, addressOk_iff, addr]
    refine ⟨by omega, ?_, ⟨index, drop_padTo 2 _⟩, ⟨short, drop_padTo 4 _⟩, fun none => ?_, readLen, retries, rfl⟩
    · cases hm : d.mode with
      | seven => exact .inl ⟨rfl, mode hm⟩
      | ten => exact .inr ⟨rfl, by omega⟩
    · cases hq : d.prelude with
      | none => rw [hpre, hq]; rfl
      | some q =>
        have := (prelude q hq).1
        rw [hpre, hq] at none
        simp only [Option.getD_some] at none
        omega
  · unfold twoWireOf
    rw [f3, f4, f5, f7, f8, f10, f11, f15, f16, f17, take_padTo, take_padTo]
    have hport : Fin.ofNat 3 d.port.val = d.port := Fin.ext (Nat.mod_eq_of_lt d.port.isLt)
    have hmode : modeOf d.mode.code = d.mode := by cases d.mode <;> rfl
    have haddr : (d.addr.setWidth 16).setWidth 10 = d.addr := BitVec.eq_of_toNat_eq (by
      have := d.addr.isLt
      rw [BitVec.toNat_setWidth, addr]
      omega)
    have hprelude : (if pre.bytes.length = 0 then none else some { bytes := pre.bytes, settle := pre.settle })
        = d.prelude := by
      cases hq : d.prelude with
      | none => rw [hpre, hq]; rfl
      | some q =>
        have := (prelude q hq).1
        rw [hpre, hq, Option.getD_some, if_neg (by omega)]
    rw [hport, hmode, haddr, hprelude]

theorem analog_bodyBytes {d : Analog} (h : [1, 2, 4, 8, 16].contains d.samples = true) (a b c : Byte) (rest : List Byte) :
    analogOk (a :: b :: c :: (bodyBytes (.analog d) ++ rest)) = true
      ∧ analogOf (a :: b :: c :: (bodyBytes (.analog d) ++ rest)) = d := by
  have range : d.samples < 256 := by
    simp only [List.contains_iff_mem, List.mem_cons, List.not_mem_nil, or_false] at h
    omega
  have input : readNat (a :: b :: c :: (bodyBytes (.analog d) ++ rest)) 18 = d.input.val := toNat_byteOf (by omega)
  have samples : readNat (a :: b :: c :: (bodyBytes (.analog d) ++ rest)) 19 = d.samples := toNat_byteOf range
  constructor
  · rw [analogOk_iff, input, samples]
    exact ⟨by omega, h, rfl⟩
  · rw [analogOf, input, samples]
    have : Fin.ofNat 10 d.input.val = d.input := Fin.ext (Nat.mod_eq_of_lt d.input.isLt)
    rw [this]

theorem length_bodyBytes {r : ProbeRecord} (h : r.inRange = true) : (bodyBytes r.body).length = 17 := by
  obtain ⟨body, limit, watch⟩ := r
  cases body with
  | analog d => rfl
  | twoWire d =>
    simp only [ProbeRecord.inRange, Bool.and_eq_true] at h
    obtain ⟨_, index, prelude, _, _⟩ := TwoWire.inRange_iff.1 h.1.1
    have short : (d.prelude.getD { bytes := [], settle := 0 }).bytes.length ≤ 4 := by
      cases hq : d.prelude with
      | none => exact Nat.zero_le 4
      | some q => exact (prelude q hq).2
    simp only [bodyBytes, List.length_append, length_padTo index, length_padTo short]
    rfl

/-- The watch part stands at its places, behind any twenty bytes. -/
theorem watchOf_watchBytes {l : List Byte} (hl : l.length = 20) {w : WatchPart} {n : Nat} (h : w.inRange n = true) :
    watchOk n (l ++ watchBytes (some w)) = true ∧ watchOf (l ++ watchBytes (some w)) = w := by
  obtain ⟨offset, width, limits, last⟩ := WatchPart.inRange_iff.1 h
  have at' : ∀ k, readByte (l ++ watchBytes (some w)) (20 + k) = readByte (watchBytes (some w)) k := fun k => by
    rw [← hl, readByte_append]
  obtain ⟨p, hp⟩ : ∃ p, p = l ++ watchBytes (some w) := ⟨_, rfl⟩
  rw [← hp] at at' ⊢
  have f21 : readNat p 21 = w.offset := (congrArg BitVec.toNat (at' 1)).trans (toNat_byteOf (by omega))
  have f22 : readNat p 22 = w.width := (congrArg BitVec.toNat (at' 2)).trans (toNat_byteOf (by omega))
  have f23 : readByte p 23 = w.order.code := at' 3
  have f24 : readByte p 24 = w.sign.code := at' 4
  have f25 : readWord p 25 = w.low := by
    rw [readWord, readHalf, readHalf, at' 5, at' 6, at' 7, at' 8]
    exact word_eq_append w.low
  have f29 : readWord p 29 = w.high := by
    rw [readWord, readHalf, readHalf, at' 9, at' 10, at' 11, at' 12]
    exact word_eq_append w.high
  have f33 : readHalf p 33 = w.hysteresis := by
    rw [readHalf, at' 13, at' 14]
    exact half_eq_append w.hysteresis
  constructor
  · have orderCode : readNat p 23 = w.order.code.toNat := congrArg BitVec.toNat f23
    have signCode : readNat p 24 = w.sign.code.toNat := congrArg BitVec.toNat f24
    rw [watchOk_iff, f21, f22, orderCode, signCode, f25, f29]
    refine ⟨offset, width, ?_, ?_, limits, last⟩
    · cases w.order <;> decide
    · cases w.sign <;> decide
  · obtain ⟨offset', width', order, sign, low, high, hysteresis⟩ := w
    rw [watchOf, f21, f22, f23, f24, f25, f29, f33]
    cases order <;> cases sign <;> rfl

/-- The first half of O15. -/
theorem readProbe_probeBytes {k : Fin 64} {r : ProbeRecord} (h : r.inRange = true) :
    (probeBytes (byteOf k.val) (some r)).length = 35 ∧ probeSlotOf (probeBytes (byteOf k.val) (some r)) = some k
      ∧ readProbe (probeBytes (byteOf k.val) (some r)) = some r := by
  have body17 := length_bodyBytes h
  obtain ⟨kind, hkind⟩ : ∃ kind, kind = (kindBytes r).headI := ⟨_, rfl⟩
  have front : kindBytes r = [kind, byteOf r.faultLimit] := by
    rw [hkind, kindBytes]
    cases r.body <;> rfl
  obtain ⟨p, hp⟩ : ∃ p, p = probeBytes (byteOf k.val) (some r) := ⟨_, rfl⟩
  rw [← hp]
  have layout : p = byteOf k.val :: kind :: byteOf r.faultLimit :: (bodyBytes r.body ++ watchBytes r.watch) := by
    rw [hp, probeBytes, front]
    rfl
  simp only [ProbeRecord.inRange, Bool.and_eq_true, decide_eq_true_eq] at h
  obtain ⟨⟨bodyRange, limit⟩, watchRange⟩ := h
  have length : p.length = 35 := by
    have : (watchBytes r.watch).length = 15 := by cases r.watch <;> rfl
    rw [layout]
    simp only [List.length_cons, List.length_append, body17, this]
  have slot : readNat p 0 = k.val := by rw [layout]; exact toNat_byteOf (by omega)
  refine ⟨length, ?_, readProbe_eq_some.2 ⟨readBody_eq_some.2 ?_, ?_, limit, ?_⟩⟩
  · rw [probeSlotOf, dif_pos (by omega)]
    exact congrArg some (Fin.ext slot)
  · have one : readByte p 1 = kind := by rw [layout]; rfl
    rw [one, hkind, kindBytes, layout]
    cases hb : r.body with
    | twoWire d =>
      rw [hb] at bodyRange
      obtain ⟨ok, read⟩ := twoWire_bodyBytes bodyRange (byteOf k.val) kind (byteOf r.faultLimit) (watchBytes r.watch)
      exact .inl ⟨rfl, ok, by rw [read]⟩
    | analog d =>
      rw [hb] at bodyRange
      obtain ⟨ok, read⟩ := analog_bodyBytes bodyRange (byteOf k.val) kind (byteOf r.faultLimit) (watchBytes r.watch)
      exact .inr ⟨rfl, ok, by rw [read]⟩
  · rw [layout]
    exact (toNat_byteOf (by omega)).symm
  · have front20 : (byteOf k.val :: kind :: byteOf r.faultLimit :: bodyBytes r.body).length = 20 := by
      simp only [List.length_cons, body17]
    have split : p = (byteOf k.val :: kind :: byteOf r.faultLimit :: bodyBytes r.body) ++ watchBytes r.watch := layout
    cases hw : r.watch with
    | none =>
      have zero : ∀ n, readByte p (20 + n) = readByte (List.replicate 15 0) n := fun n => by
        rw [split, ← front20, readByte_append, hw]
        rfl
      refine .inl ⟨zero 0, ?_, rfl⟩
      rw [split, show 21 = (byteOf k.val :: kind :: byteOf r.faultLimit :: bodyBytes r.body).length + 1 by rw [front20],
        places_append, hw]
      rfl
    | some w =>
      rw [hw] at watchRange split
      obtain ⟨ok, read⟩ := watchOf_watchBytes front20 watchRange
      rw [← split] at ok read
      refine .inr ⟨?_, ok, by rw [read]⟩
      rw [split, show 20 = (byteOf k.val :: kind :: byteOf r.faultLimit :: bodyBytes r.body).length + 0 by rw [front20],
        readByte_append]
      rfl

end Sys2Proof.Machine
end

section
/-! PROOFS. A valid PROBE.SET or SWEEP.SET payload is what a reply writes back (R15, R44, R184, R185). -/

namespace Sys2Proof.Machine

/-! ### A valid PROBE.SET payload is written back (R6, R184) -/

theorem byteOf_readNat (p : List Byte) (k : Nat) : byteOf (readNat p k) = readByte p k :=
  byteOf_toNat _

/-- A byte that names one of `n` numbers is written back as it was. -/
theorem byteOf_fin (p : List Byte) (k : Nat) {n : Nat} [NeZero n] (h : readNat p k < n) :
    byteOf (Fin.ofNat n (readNat p k)).val = readByte p k := by
  rw [← byteOf_readNat]
  exact congrArg byteOf (Nat.mod_eq_of_lt h)

/-- A checked code byte is 0 or 1. -/
theorem readByte_zero_or_one {p : List Byte} {k : Nat} (h : readNat p k ≤ 1) : readByte p k = 0 ∨ readByte p k = 1 := by
  rw [← byteOf_readNat]
  have : readNat p k = 0 ∨ readNat p k = 1 := by omega
  rcases this with e | e
  · exact .inl (by rw [e]; rfl)
  · exact .inr (by rw [e]; rfl)

/-- The places 3 to 19 of a payload, field by field. -/
theorem places_body {p : List Byte} (h : 20 ≤ p.length) : places p 3 17 =
    [readByte p 3, readByte p 4] ++ be16 (readHalf p 5) ++ [readByte p 7] ++ places p 8 2 ++ [readByte p 10]
      ++ places p 11 4 ++ [readByte p 15, readByte p 16, readByte p 17] ++ places p 18 2 := by
  rw [places_add p 3 15 2, places_add p 3 14 1, places_add p 3 13 1, places_add p 3 12 1, places_add p 3 8 4,
    places_add p 3 7 1, places_add p 3 5 2, places_add p 3 4 1, places_add p 3 2 2, places_add p 3 1 1]
  simp only [Nat.reduceAdd]
  rw [places_one (k := 3) (by omega), places_one (k := 4) (by omega), places_half (k := 5) (by omega),
    places_one (k := 7) (by omega), places_one (k := 10) (by omega), places_one (k := 15) (by omega),
    places_one (k := 16) (by omega), places_one (k := 17) (by omega)]
  simp only [List.append_assoc, List.cons_append, List.nil_append]

/-- A check of the address leaves no bit of the field unread. -/
theorem setWidth_addr {mode : Byte} {addr : Half} (h : addressOk mode addr = true) :
    (addr.setWidth 10).setWidth 16 = addr ∧ ((addr.setWidth 10).toNat = addr.toNat)
      ∧ (modeOf mode).code = mode ∧ (modeOf mode = .seven → addr.toNat ≤ 127) := by
  have small : addr.toNat < 1024 := by
    rcases addressOk_iff.1 h with ⟨_, _⟩ | ⟨_, _⟩ <;> omega
  have narrow : (addr.setWidth 10).toNat = addr.toNat := by
    rw [BitVec.toNat_setWidth]
    omega
  refine ⟨BitVec.eq_of_toNat_eq ?_, narrow, ?_⟩
  · rw [BitVec.toNat_setWidth, narrow]
    have := addr.isLt
    omega
  · rcases addressOk_iff.1 h with ⟨rfl, low⟩ | ⟨rfl, _⟩
    · exact ⟨rfl, fun _ => low⟩
    · exact ⟨rfl, fun e => absurd e (by decide)⟩

theorem length_used {p : List Byte} {k n m : Nat} (h : k + n ≤ p.length) (hm : m ≤ n) :
    ((places p k n).take m).length = m := by
  rw [List.length_take, length_places h]
  omega

/-- Checked places are their used ones, padded. -/
theorem padTo_places {p : List Byte} {k n m : Nat} (h : k + n ≤ p.length) (hm : m ≤ n)
    (zero : allZero ((places p k n).drop m) = true) : padTo n ((places p k n).take m) = places p k n := by
  have := padTo_take (l := places p k n) (m := m) (by rw [length_places h]; exact hm) zero
  rwa [length_places h] at this

theorem twoWireOf_inRange {p : List Byte} (h : 20 ≤ p.length) (ok : twoWireOk p = true) : (twoWireOf p).inRange = true := by
  obtain ⟨_, address, ⟨index, _⟩, ⟨prelude, _⟩, _, readLen, retries, _⟩ := twoWireOk_iff.1 ok
  obtain ⟨_, addr, _, mode⟩ := setWidth_addr address
  refine TwoWire.inRange_iff.2 ⟨fun seven => ?_, ?_, fun q hq => ?_, readLen, retries⟩
  · exact addr.trans_le (mode seven)
  · exact (length_used (by omega) index).trans_le index
  · simp only [twoWireOf] at hq
    split at hq
    · exact absurd hq (by simp)
    · obtain rfl := Option.some.inj hq
      simp only [length_used (p := p) (k := 11) (by omega) prelude]
      omega

theorem bodyBytes_twoWireOf {p : List Byte} (h : 20 ≤ p.length) (ok : twoWireOk p = true) :
    bodyBytes (.twoWire (twoWireOf p)) = places p 3 17 := by
  obtain ⟨port, address, ⟨index, indexZero⟩, ⟨prelude, preludeZero⟩, settle, _, _, unused⟩ := twoWireOk_iff.1 ok
  obtain ⟨addr, _, mode, _⟩ := setWidth_addr address
  obtain ⟨pre, hpre⟩ : ∃ pre, pre = (twoWireOf p).prelude.getD { bytes := [], settle := 0 } := ⟨_, rfl⟩
  have preFields : pre.bytes = (places p 11 4).take (readNat p 10) ∧ pre.settle = readByte p 15 := by
    rw [hpre, twoWireOf]
    by_cases none : readNat p 10 = 0
    · rw [if_pos none, settle none, none]
      exact ⟨rfl, rfl⟩
    · rw [if_neg none]
      exact ⟨rfl, rfl⟩
  have zero : places p 18 2 = [0, 0] := by
    have := eq_replicate_of_allZero unused
    rwa [length_places (by omega)] at this
  rw [places_body h, zero]
  simp only [bodyBytes, ← hpre]
  rw [preFields.1, preFields.2, length_used (by omega) prelude, padTo_places (by omega) prelude preludeZero]
  simp only [twoWireOf]
  rw [length_used (by omega) index, padTo_places (by omega) index indexZero, addr, mode, byteOf_fin p 3 (by omega),
    byteOf_readNat, byteOf_readNat, byteOf_readNat, byteOf_readNat]
  simp only [List.append_assoc, List.cons_append, List.nil_append]

theorem bodyBytes_analogOf {p : List Byte} (h : 20 ≤ p.length) (ok : analogOk p = true) :
    bodyBytes (.analog (analogOf p)) = places p 3 17 := by
  obtain ⟨input, _, unused⟩ := analogOk_iff.1 ok
  have zero := eq_replicate_of_allZero unused
  rw [length_places (by omega)] at zero
  rw [places_add p 3 16 1, places_add p 3 15 1, zero, places_one (by omega), places_one (by omega)]
  simp only [bodyBytes, analogOf]
  rw [byteOf_fin p 18 (by omega), byteOf_readNat, List.append_assoc]
  rfl

theorem watchBytes_watchOf {p : List Byte} (h : p.length = 35) {n : Nat} (flag : readByte p 20 = 1)
    (ok : watchOk n p = true) : (watchOf p).inRange n = true ∧ watchBytes (some (watchOf p)) = places p 20 15 := by
  obtain ⟨offset, width, order, sign, limits, last⟩ := watchOk_iff.1 ok
  refine ⟨WatchPart.inRange_iff.2 ⟨offset, width, limits, last⟩, ?_⟩
  rw [places_add p 20 13 2, places_add p 20 9 4, places_add p 20 5 4, places_add p 20 4 1, places_add p 20 3 1,
    places_add p 20 2 1, places_add p 20 1 1]
  simp only [Nat.reduceAdd]
  rw [places_one (k := 20) (by omega), places_one (k := 21) (by omega), places_one (k := 22) (by omega),
    places_one (k := 23) (by omega), places_one (k := 24) (by omega), places_word (k := 25) (by omega),
    places_word (k := 29) (by omega), places_half (k := 33) (by omega), flag]
  have orderCode : (watchOf p).order.code = readByte p 23 := by
    rcases readByte_zero_or_one order with e | e <;> simp only [watchOf, e] <;> rfl
  have signCode : (watchOf p).sign.code = readByte p 24 := by
    rcases readByte_zero_or_one sign with e | e <;> simp only [watchOf, e] <;> rfl
  simp only [watchBytes, orderCode, signCode]
  simp only [watchOf, byteOf_readNat, List.append_assoc, List.cons_append, List.nil_append]

/-- The second half of O15. -/
theorem probeBytes_readProbe {p : List Byte} {r : ProbeRecord} (h : p.length = 35) (read : readProbe p = some r) :
    r.inRange = true ∧ probeBytes (readByte p 0) (some r) = p := by
  obtain ⟨body, limit, range, watch⟩ := readProbe_eq_some.1 read
  have bodyPart : bodyBytes r.body = places p 3 17 ∧ kindBytes r = places p 1 2
      ∧ (match r.body with
        | .twoWire d => d.inRange
        | .analog d => [1, 2, 4, 8, 16].contains d.samples) = true := by
    rw [places_add p 1 1 1, places_one (by omega), places_one (by omega), kindBytes, limit, byteOf_readNat]
    rcases readBody_eq_some.1 body with ⟨kind, ok, e⟩ | ⟨kind, ok, e⟩
    · rw [e, kind]
      exact ⟨bodyBytes_twoWireOf (by omega) ok, rfl, twoWireOf_inRange (by omega) ok⟩
    · rw [e, kind]
      exact ⟨bodyBytes_analogOf (by omega) ok, rfl, (analogOk_iff.1 ok).2.1⟩
  have watchPart : watchBytes r.watch = places p 20 15 ∧ (match r.watch with
      | none => true
      | some w => w.inRange r.dataLength) = true := by
    rcases watch with ⟨flag, unused, e⟩ | ⟨flag, ok, e⟩
    · have zero := eq_replicate_of_allZero unused
      rw [length_places (by omega)] at zero
      rw [e, places_add p 20 1 14, places_one (by omega), flag, zero]
      exact ⟨rfl, rfl⟩
    · obtain ⟨inRange, bytes⟩ := watchBytes_watchOf h flag ok
      rw [e]
      exact ⟨bytes, inRange⟩
  obtain ⟨hbody, hkind, bodyRange⟩ := bodyPart
  obtain ⟨hwatch, watchRange⟩ := watchPart
  refine ⟨?_, ?_⟩
  · simp only [ProbeRecord.inRange, Bool.and_eq_true, decide_eq_true_eq]
    exact ⟨⟨bodyRange, range⟩, watchRange⟩
  · have whole := places_all p
    rw [h, places_add p 0 20 15, places_add p 0 3 17, places_add p 0 1 2, places_one (by omega)] at whole
    rw [probeBytes, hbody, hkind, hwatch]
    exact whole

/-- Settles O15. -/
theorem probePayloadRoundTrip : Obligations.ProbePayloadRoundTrip := by
  unfold Obligations.ProbePayloadRoundTrip
  exact ⟨fun _ _ h => readProbe_probeBytes h, fun _ _ h read => probeBytes_readProbe h read⟩

/-! ### SWEEP.SET (R22, R44, R185) -/

theorem SweepDef.inRange_iff {d : SweepDef} : d.inRange = true ↔
    (1 ≤ d.list.length ∧ d.list.length ≤ 16) ∧ d.list.Nodup
      ∧ ∀ period phase, d.source = .period period phase → period ≠ 0 ∧ phase.toNat < period.toNat := by
  unfold SweepDef.inRange
  cases d.source <;> grind

theorem policiesOk_iff {p : List Byte} : policiesOk p = true ↔
    readNat p 9 ≤ 1 ∧ readNat p 10 ≤ 1 ∧ readNat p 11 ≤ 3 ∧ readNat p 12 ≤ 1 := by
  simp only [policiesOk, Bool.and_eq_true, decide_eq_true_eq, and_assoc]

/-- When a payload gives a source, and which. -/
theorem readSource_eq_some {p : List Byte} {t : Trigger} : readSource p = some t ↔
    match t with
    | .period period phase => readByte p 1 = 1 ∧ readHalf p 2 = period ∧ readHalf p 4 = phase ∧ readByte p 6 = 0
        ∧ period ≠ 0 ∧ phase.toNat < period.toNat
    | .host => readByte p 1 = 2 ∧ readHalf p 2 = 0 ∧ readHalf p 4 = 0 ∧ readByte p 6 = 0
    | .chain j => readByte p 1 = 3 ∧ readHalf p 2 = 0 ∧ readHalf p 4 = 0 ∧ readNat p 6 = j.val := by
  unfold readSource
  cases t <;> grind

theorem flagByte_beq_one {b : Byte} (h : b = 0 ∨ b = 1) : flagByte (b == 1) = b := by
  rcases h with rfl | rfl <;> rfl

/-- A slot number is the byte that names it. -/
theorem slotNumber_byteOf (k : Fin 64) : Fin.ofNat 64 (byteOf k.val).toNat = k := by
  rw [toNat_byteOf (by omega)]
  exact Fin.ext (Nat.mod_eq_of_lt k.isLt)

/-- The list part of a payload that names the slots of `l`, one place each. -/
theorem sweepList_padTo {p : List Byte} {l : List (Fin 64)} (range : 1 ≤ l.length ∧ l.length ≤ 16) (distinct : l.Nodup)
    (length : readNat p 13 = l.length) (slots : places p 14 16 = padTo 16 (l.map (fun k => byteOf k.val))) :
    sweepListOk p = true ∧ sweepListOf p = l := by
  have used := take_padTo 16 (l.map (fun k => byteOf k.val))
  have unused := drop_padTo 16 (l.map (fun k => byteOf k.val))
  rw [List.length_map] at used unused
  rw [sweepListOk_iff, sweepListOf, slots, length, used]
  refine ⟨⟨range, fun b hb => ?_, ?_, unused⟩, ?_⟩
  · obtain ⟨k, _, rfl⟩ := List.mem_map.1 hb
    rw [toNat_byteOf (by omega)]
    exact k.isLt
  · refine distinct.map fun a b e => ?_
    rw [← slotNumber_byteOf a, ← slotNumber_byteOf b]
    exact congrArg (fun c : Byte => Fin.ofNat 64 c.toNat) e
  · rw [List.map_map]
    exact (List.map_congr_left fun k _ => slotNumber_byteOf k).trans (List.map_id l)

/-- The source of a definition in range stands at its places. -/
theorem readSource_sourceBytes {t : Trigger}
    (range : ∀ period phase, t = .period period phase → period ≠ 0 ∧ phase.toNat < period.toNat) (a : Byte)
    (rest : List Byte) : readSource (a :: (sourceBytes t ++ rest)) = some t := by
  refine readSource_eq_some.2 ?_
  have zero : (0 : Byte) ++ (0 : Byte) = (0 : Half) := by decide
  cases t with
  | period period phase =>
    obtain ⟨positive, below⟩ := range period phase rfl
    exact ⟨rfl, half_eq_append period, half_eq_append phase, rfl, positive, below⟩
  | host => exact ⟨rfl, zero, zero, rfl⟩
  | chain j => exact ⟨rfl, zero, zero, toNat_byteOf (by omega)⟩

theorem length_sourceBytes (t : Trigger) : (sourceBytes t).length = 6 := by
  cases t <;> rfl

/-- The first half of O16. -/
theorem readSweep_sweepBytes {i : SweepNo} {d : SweepDef} (h : d.inRange = true) :
    (sweepBytes (some d)).length = 29 ∧ sweepOf (byteOf i.val :: sweepBytes (some d)) = some i
      ∧ readSweep (byteOf i.val :: sweepBytes (some d)) = .ok d := by
  obtain ⟨length, distinct, source⟩ := SweepDef.inRange_iff.1 h
  obtain ⟨slots, hslots⟩ : ∃ slots, slots = padTo 16 (d.list.map (fun k => byteOf k.val)) := ⟨_, rfl⟩
  have size : slots.length = 16 := by
    rw [hslots]
    exact length_padTo (by rw [List.length_map]; exact length.2)
  obtain ⟨p, hp⟩ : ∃ p, p = byteOf i.val :: sweepBytes (some d) := ⟨_, rfl⟩
  have layout : p = (byteOf i.val :: sourceBytes d.source) ++ (be16 d.passLimit
      ++ [d.overrun.code, d.faultPolicy.code, byteOf d.priority.val, flagByte d.notify, byteOf d.list.length] ++ slots) := by
    rw [hp, hslots]
    simp [sweepBytes]
  have bytes29 : (sweepBytes (some d)).length = 29 := by
    simp only [sweepBytes, List.length_append, length_sourceBytes, ← hslots, size]
    rfl
  have front : (byteOf i.val :: sourceBytes d.source).length = 7 := by rw [List.length_cons, length_sourceBytes]
  have at' : ∀ k, readByte p (7 + k) = readByte (be16 d.passLimit
      ++ [d.overrun.code, d.faultPolicy.code, byteOf d.priority.val, flagByte d.notify, byteOf d.list.length] ++ slots) k :=
    fun k => by rw [← front, layout, readByte_append]
  have f7 : readHalf p 7 = d.passLimit := by
    rw [readHalf, at' 0, at' 1]
    exact half_eq_append d.passLimit
  have f9 : readByte p 9 = d.overrun.code := at' 2
  have f10 : readByte p 10 = d.faultPolicy.code := at' 3
  have f11 : readNat p 11 = d.priority.val := (congrArg BitVec.toNat (at' 4)).trans (toNat_byteOf (by omega))
  have f12 : readByte p 12 = flagByte d.notify := at' 5
  have f13 : readNat p 13 = d.list.length := (congrArg BitVec.toNat (at' 6)).trans (toNat_byteOf (by omega))
  have f14 : places p 14 16 = slots := by
    rw [show 14 = (byteOf i.val :: sourceBytes d.source).length + 7 by rw [front], layout, places_append]
    exact List.take_of_length_le size.le
  obtain ⟨listOk, list⟩ := sweepList_padTo length distinct f13 (f14.trans hslots)
  rw [← hp]
  refine ⟨bytes29, ?_, readSweep_eq_ok.2 ⟨d.source, ?_, policiesOk_iff.2 ⟨?_, ?_, by omega, ?_⟩, listOk, ?_⟩⟩
  · have number : readNat p 0 = i.val := by rw [hp]; exact toNat_byteOf (by omega)
    rw [sweepOf, dif_pos (by omega)]
    exact congrArg some (Fin.ext number)
  · rw [layout]
    exact readSource_sourceBytes source _ _
  · rw [readNat, f9]
    cases d.overrun <;> decide
  · rw [readNat, f10]
    cases d.faultPolicy <;> decide
  · rw [readNat, f12]
    cases d.notify <;> decide
  · have overrun : (if d.overrun.code = 1 then Overrun.restart else .skip) = d.overrun := by cases d.overrun <;> rfl
    have fault : (if d.faultPolicy.code = 1 then FaultPolicy.halt else .continue) = d.faultPolicy := by
      cases d.faultPolicy <;> rfl
    have notify : (flagByte d.notify == 1) = d.notify := by cases d.notify <;> rfl
    have priority : Fin.ofNat 4 d.priority.val = d.priority := Fin.ext (Nat.mod_eq_of_lt d.priority.isLt)
    rw [list, f7, f9, f10, f11, f12, overrun, fault, notify, priority]

/-- The source of a payload is written back. -/
theorem sourceBytes_readSource {p : List Byte} (h : 7 ≤ p.length) {t : Trigger} (read : readSource p = some t) :
    sourceBytes t = places p 1 6 := by
  have fields : places p 1 6 = readByte p 1 :: (be16 (readHalf p 2) ++ be16 (readHalf p 4) ++ [readByte p 6]) := by
    rw [places_add p 1 5 1, places_add p 1 3 2, places_add p 1 1 2, places_one (by omega), places_half (by omega),
      places_half (by omega), places_one (by omega)]
    rfl
  rw [fields]
  have content := readSource_eq_some.1 read
  cases t with
  | period period phase =>
    obtain ⟨kind, hperiod, hphase, unused, _⟩ := content
    rw [kind, hperiod, hphase, unused]
    rfl
  | host =>
    obtain ⟨kind, hperiod, hphase, unused⟩ := content
    rw [kind, hperiod, hphase, unused]
    rfl
  | chain j =>
    obtain ⟨kind, hperiod, hphase, number⟩ := content
    rw [kind, hperiod, hphase, ← byteOf_readNat p 6, number]
    rfl

/-- The list of a checked payload is written back. -/
theorem padTo_sweepListOf {p : List Byte} (h : p.length = 30) (ok : sweepListOk p = true) :
    (sweepListOf p).length = readNat p 13
      ∧ padTo 16 ((sweepListOf p).map (fun k => byteOf k.val)) = places p 14 16 := by
  obtain ⟨⟨_, short⟩, range, _, unused⟩ := (sweepListOk_iff p).1 ok
  have same : (sweepListOf p).map (fun k => byteOf k.val) = (places p 14 16).take (readNat p 13) := by
    rw [sweepListOf, List.map_map]
    refine (List.map_congr_left fun b hb => ?_).trans (List.map_id _)
    exact (congrArg byteOf (Nat.mod_eq_of_lt (range b hb))).trans (byteOf_toNat b)
  refine ⟨?_, ?_⟩
  · rw [sweepListOf, List.length_map, length_used (by omega) short]
  · rw [same, padTo_places (by omega) short unused]

/-- The second half of O16. -/
theorem sweepBytes_readSweep {p : List Byte} {d : SweepDef} (h : p.length = 30) (read : readSweep p = .ok d) :
    d.inRange = true ∧ readByte p 0 :: sweepBytes (some d) = p := by
  obtain ⟨source, hsource, policies, list, rfl⟩ := readSweep_eq_ok.1 read
  obtain ⟨overrun, fault, priority, notify⟩ := policiesOk_iff.1 policies
  obtain ⟨length, slots⟩ := padTo_sweepListOf h list
  refine ⟨SweepDef.inRange_iff.2 ⟨?_, (sweepListOf_distinct list).1, fun period phase e => ?_⟩, ?_⟩
  · rw [length]
    exact ((sweepListOk_iff p).1 list).1
  · simp only at e
    subst e
    obtain ⟨_, _, _, _, positive, below⟩ := readSource_eq_some.1 hsource
    exact ⟨positive, below⟩
  · have overrunCode : (if readByte p 9 = 1 then Overrun.restart else .skip).code = readByte p 9 := by
      rcases readByte_zero_or_one overrun with e | e <;> rw [e] <;> rfl
    have faultCode : (if readByte p 10 = 1 then FaultPolicy.halt else .continue).code = readByte p 10 := by
      rcases readByte_zero_or_one fault with e | e <;> rw [e] <;> rfl
    have whole := places_all p
    rw [h, places_add p 0 14 16, places_add p 0 13 1, places_add p 0 12 1, places_add p 0 11 1, places_add p 0 10 1,
      places_add p 0 9 1, places_add p 0 7 2, places_add p 0 1 6] at whole
    simp only [Nat.reduceAdd] at whole
    rw [places_one (k := 0) (by omega), places_half (k := 7) (by omega), places_one (k := 9) (by omega),
      places_one (k := 10) (by omega), places_one (k := 11) (by omega), places_one (k := 12) (by omega),
      places_one (k := 13) (by omega)] at whole
    refine Eq.trans ?_ whole
    simp only [sweepBytes]
    rw [slots, length, overrunCode, faultCode, byteOf_fin p 11 (by omega), flagByte_beq_one (readByte_zero_or_one notify),
      byteOf_readNat, sourceBytes_readSource (by omega) hsource]
    simp only [List.append_assoc, List.cons_append, List.nil_append]

/-- Settles O16. -/
theorem sweepPayloadRoundTrip : Obligations.SweepPayloadRoundTrip := by
  unfold Obligations.SweepPayloadRoundTrip
  exact ⟨fun _ _ h => readSweep_sweepBytes h, fun _ _ h read => sweepBytes_readSweep h read⟩

/-! ### The two-wire bus (R103 to R105, Tables 6-2 and 6-3) -/

/-- A 7-bit target: its address, then the R/W bit. -/
theorem addressByte_seven (a : BitVec 10) (x : BitVec 1) : byteOf (2 * a.toNat + x.toNat) = a.extractLsb' 0 7 ++ x := by
  refine BitVec.eq_of_toNat_eq ?_
  have := x.isLt
  rw [BitVec.toNat_append, ← Nat.shiftLeft_add_eq_or_of_lt x.isLt, Nat.shiftLeft_eq, BitVec.extractLsb'_toNat,
    Nat.shiftRight_eq_div_pow, byteOf, BitVec.toNat_ofNat]
  omega

/-- A 10-bit target: 11110, its upper two bits, then the R/W bit. -/
theorem addressByte_ten (a : BitVec 10) (x : BitVec 1) : byteOf (0xF0 + 2 * (a.toNat / 256) + x.toNat)
    = 0b11110#5 ++ a.extractLsb' 8 2 ++ x := by
  refine BitVec.eq_of_toNat_eq ?_
  have ha := a.isLt
  have hx := x.isLt
  have hy := (a.extractLsb' 8 2).isLt
  rw [BitVec.toNat_append, ← Nat.shiftLeft_add_eq_or_of_lt x.isLt, Nat.shiftLeft_eq, BitVec.toNat_append,
    ← Nat.shiftLeft_add_eq_or_of_lt hy, Nat.shiftLeft_eq, BitVec.extractLsb'_toNat, Nat.shiftRight_eq_div_pow,
    byteOf, BitVec.toNat_ofNat, BitVec.toNat_ofNat]
  omega

theorem addressForWrite_seven (a : BitVec 10) : addressForWrite .seven a = [a.extractLsb' 0 7 ++ 0#1] := by
  rw [← addressByte_seven]
  rfl

theorem addressForRead_seven (a : BitVec 10) : addressForRead .seven a = a.extractLsb' 0 7 ++ 1#1 :=
  addressByte_seven a 1#1

theorem addressForWrite_ten (a : BitVec 10) :
    addressForWrite .ten a = [0b11110#5 ++ a.extractLsb' 8 2 ++ 0#1, a.extractLsb' 0 8] := by
  have second : byteOf a.toNat = a.extractLsb' 0 8 := BitVec.eq_of_toNat_eq (by
    rw [BitVec.extractLsb'_toNat, Nat.shiftRight_eq_div_pow, byteOf, BitVec.toNat_ofNat]
    omega)
  rw [← addressByte_ten, ← second]
  rfl

theorem addressForRead_ten (a : BitVec 10) : addressForRead .ten a = 0b11110#5 ++ a.extractLsb' 8 2 ++ 1#1 :=
  addressByte_ten a 1#1

/-- Every received byte is acknowledged but the last. -/
theorem readBytes_of_pos {n : Nat} (h : 0 < n) : readBytes n = List.replicate (n - 1) (.read true) ++ [.read false] := by
  obtain ⟨m, rfl⟩ := Nat.exists_eq_add_of_lt h
  rw [Nat.zero_add]
  rfl

theorem bitTimes_append (l m : List BusItem) : bitTimes (l ++ m) = bitTimes l + bitTimes m := by
  simp [bitTimes]

theorem bitTimes_cons (x : BusItem) (l : List BusItem) : bitTimes (x :: l) = x.bitTimes + bitTimes l := by
  simp [bitTimes]

theorem bitTimes_write (w : List Byte) : bitTimes (w.map .write) = 9 * w.length := by
  induction w with
  | nil => rfl
  | cons b w ih =>
    rw [List.map_cons, bitTimes_cons, ih, List.length_cons, BusItem.bitTimes]
    omega

theorem bitTimes_read (n : Nat) : bitTimes (readBytes n) = 9 * n := by
  cases n with
  | zero => rfl
  | succ n =>
    have acknowledged : bitTimes (List.replicate n (.read true)) = 9 * n := by
      simp [bitTimes, BusItem.bitTimes, Nat.mul_comm]
    rw [readBytes, bitTimes_append, acknowledged]
    rfl

/-- A sequence that writes only. -/
theorem busSequence_write (mode : AddrMode) (a : BitVec 10) (w : List Byte) : busSequence mode a w 0 =
    .start :: ((addressForWrite mode a).map .address ++ w.map .write) ++ [.stop] := rfl

/-- A sequence that addresses for a read at once. -/
theorem busSequence_read (a : BitVec 10) {n : Nat} (h : 0 < n) : busSequence .seven a [] n =
    .start :: (.address (addressForRead .seven a) :: readBytes n) ++ [.stop] := by
  unfold busSequence
  rw [if_neg (by omega), if_pos ⟨rfl, rfl⟩]

/-- A sequence with a repeated start. -/
theorem busSequence_write_read {mode : AddrMode} (a : BitVec 10) {w : List Byte} {n : Nat} (h : 0 < n)
    (hw : ¬(w = [] ∧ mode = .seven)) : busSequence mode a w n =
    .start :: ((addressForWrite mode a).map .address ++ w.map .write) ++ [.repeatedStart]
      ++ (.address (addressForRead mode a) :: readBytes n) ++ [.stop] := by
  unfold busSequence
  rw [if_neg (by omega), if_neg hw]

/-- Bit times of the three sequences: 1 for a condition, 9 for a byte. -/
theorem bitTimes_busSequence (mode : AddrMode) (a : BitVec 10) (w : List Byte) (n : Nat) :
    bitTimes (busSequence mode a w 0) = 2 + 9 * ((addressForWrite mode a).length + w.length)
      ∧ (0 < n → bitTimes (busSequence .seven a [] n) = 2 + 9 * (1 + n))
      ∧ (0 < n → ¬(w = [] ∧ mode = .seven) →
        bitTimes (busSequence mode a w n) = 3 + 9 * ((addressForWrite mode a).length + w.length + 1 + n)) := by
  have address : bitTimes ((addressForWrite mode a).map .address) = 9 * (addressForWrite mode a).length := by
    cases mode <;> rfl
  have stop : bitTimes [.stop] = 1 := rfl
  have restart : bitTimes [.repeatedStart] = 1 := rfl
  refine ⟨?_, fun h => ?_, fun h hw => ?_⟩
  · rw [busSequence_write]
    simp only [bitTimes_append, bitTimes_cons, address, bitTimes_write, stop, BusItem.bitTimes]
    omega
  · rw [busSequence_read a h]
    simp only [bitTimes_append, bitTimes_cons, bitTimes_read, stop, BusItem.bitTimes]
    omega
  · rw [busSequence_write_read a h hw]
    simp only [bitTimes_append, bitTimes_cons, address, bitTimes_write, bitTimes_read, stop, restart, BusItem.bitTimes]
    omega

/-- Settles O17: the address bytes, the sequences, and their bit times. -/
theorem addressBytesAndBitTimes : Obligations.AddressBytesAndBitTimes := by
  unfold Obligations.AddressBytesAndBitTimes
  refine ⟨⟨fun a ha => ⟨rfl, toNat_byteOf (by omega)⟩, fun a => ⟨addressForWrite_ten a, addressForRead_ten a⟩⟩,
    fun a w n reads one first second pos hreads hone hfirst hsecond => ?_, fun d => ⟨fun pre hpre => ?_, rfl⟩,
    fun a w => ?_, fun a b w n h => ?_, fun a n h => (bitTimes_busSequence .seven a [] n).2.1 h, fun a w n h => ?_⟩
  · have hread : readBytes n = reads := (readBytes_of_pos pos).trans hreads.symm
    refine ⟨?_, ?_, fun hw => ?_, ?_, ?_⟩
    · rw [busSequence_write, addressForWrite_seven, hone]
      rfl
    · rw [busSequence_read a pos, addressForRead_seven, hread, hone]
      rfl
    · rw [busSequence_write_read a pos fun h => hw h.1, addressForWrite_seven, addressForRead_seven, hread, hone, hone]
      simp
    · rw [busSequence_write, addressForWrite_ten, hfirst, hsecond]
      rfl
    · rw [busSequence_write_read a pos (fun h => absurd h.2 (by decide)), addressForWrite_ten, addressForRead_ten, hread,
        hfirst, hfirst, hsecond]
      simp
  · rw [phaseSequence, hpre]
    rfl
  · exact ⟨(bitTimes_busSequence .seven a w 0).1, (bitTimes_busSequence .ten a w 0).1⟩
  · rw [(bitTimes_busSequence .seven a (b :: w) n).2.2 h (by simp)]
    simp only [addressForWrite, List.length_cons, List.length_nil]
    omega
  · rw [(bitTimes_busSequence .ten a w n).2.2 h (by simp)]
    simp only [addressForWrite, List.length_cons, List.length_nil]
    omega

end Sys2Proof.Machine
end

section
/-! PROOFS. Passes and SWEEP requests as whole next states: the start of a pass, its abandonment, triggers, withdrawals,
halts and stops (Chapters 2 and 3). -/

namespace Sys2Proof.Machine

/-! ### What an arbiter has taken it no longer holds as issued (R89) -/

theorem Port.foldl_arrive_issues (q : Port) (now : Time) (l : List ProbeRequest) :
    (l.foldl (fun q r => q.arrive now r) q).arb.issues = q.arb.issues := by
  induction l generalizing q with
  | nil => rfl
  | cons r l ih =>
    have same : (q.arrive now r).arb.issues = q.arb.issues := by
      unfold Port.arrive
      split <;> rfl
    exact (ih (q.arrive now r)).trans same

theorem Port.takeIssues_issues (q : Port) (now : Time) : (q.takeIssues now).arb.issues = [] :=
  Port.foldl_arrive_issues _ now q.arb.issues

theorem Arbiter.foldl_place_issues (a : Arbiter) (l : List ProbeRequest) :
    (l.foldl Arbiter.place a).issues = a.issues := by
  induction l generalizing a with
  | nil => rfl
  | cons r l ih => exact ih (a.place r)

theorem Converter.takeIssues_issues (c : Converter) : c.takeIssues.arb.issues = [] :=
  Arbiter.foldl_place_issues _ c.arb.issues

/-! ### The requests of a pass (R48, R59) -/

/-- The page a pass prepares (R47, R69, R71). -/
theorem Pages.prepare_eq (g : Pages) (pass : Word) (start : Time) (list : List (Fin 64)) :
    g.prepare pass start list = if g.publishedB
      then { a := { pass := pass, start := start, publish := 0, faults := 0, records := preparedRecords list }, b := g.b
             publishedB := true, workUsed := true }
      else { a := g.a, b := { pass := pass, start := start, publish := 0, faults := 0, records := preparedRecords list }
             publishedB := false, workUsed := true } := by
  obtain ⟨a, b, published, used⟩ := g
  cases published <;> rfl

/-- What the request for position `k` names: nothing beyond the list. -/
theorem State.requestAt_beyond {s : State} {i : SweepNo} {d : SweepDef} {k : Fin 16} (h : k ∉ d.positions) (r : Resource) :
    s.requestAt i d k r = none := by
  have beyond : d.list.length ≤ k.val := Nat.le_of_not_lt fun c => h ((d.mem_positions k).2 c)
  rw [State.requestAt, List.getElem?_eq_none beyond]

/-- The requests for the positions of a list that a condition chooses, found among all sixteen positions. -/
theorem State.filterMap_requestAt (s : State) (i : SweepNo) (d : SweepDef) (r : Resource) (p : Fin 16 → Bool) :
    (d.positions.filter p).filterMap (fun k => s.requestAt i d k r)
      = (List.finRange 16).filterMap (fun k => if p k then s.requestAt i d k r else none) := by
  rw [SweepDef.positions, List.filter_filter, List.filterMap_filter]
  refine List.filterMap_congr fun k _ => ?_
  by_cases inList : k ∈ d.positions
  · simp [(d.mem_positions k).1 inList]
  · have beyond : ¬k.val < d.list.length := fun c => inList ((d.mem_positions k).2 c)
    simp [beyond, State.requestAt_beyond inList]

section
variable (s : State) (i : SweepNo) (d : SweepDef)

theorem State.beginPass_sweep : (s.beginPass i d).sweep i = { s.sweep i with
    started := (s.sweep i).started + 1, state := .running
    run := some { start := s.time, positions := List.replicate d.list.length .pending } } := by
  simp only [State.beginPass, State.setPages_sweep, State.setSweep_sweep]

/-- The request of a new pass for position `k`: of the pass that begins. -/
theorem State.requestAt_beginPass {t : State} (slots : t.slots = s.slots)
    (started : (t.sweep i).started = (s.sweep i).started + 1) (k : Fin 16) (r : Resource) :
    t.requestAt i d k r =
      match d.list[k.val]? with
      | none => none
      | some slot =>
        match (s.slot slot).record with
        | none => none
        | some copy =>
          if copy.resource = r then
            some { sweep := i, position := k, pass := (s.sweep i).started + 1, slot := slot, copy := copy,
                   priority := d.priority }
          else none := by
  have slot : ∀ k, t.slot k = s.slot k := fun k => by simp only [State.slot, slots]
  simp only [State.requestAt, slot, started] <;> rfl

end

/-- Settles O37: every position of the list is issued, and the work page is the prepared one. -/
theorem passStarts : Obligations.PassStarts := by
  unfold Obligations.PassStarts
  intro s i d work pages issued short hwork hpages hissued
  have requests : ∀ r, d.positions.filterMap (fun k => (s.beginPass i d).requestAt i d k r) = issued r := fun r => by
    have all := (s.beginPass i d).filterMap_requestAt i d r (fun _ => true)
    rw [List.filter_true] at all
    rw [hissued r, all]
    refine List.filterMap_congr fun k _ => ?_
    exact s.requestAt_beginPass i d (by simp) (by rw [s.beginPass_sweep i d]) k r
  have prepared : (s.pagesOf i).prepare ((s.sweep i).started + 1) s.time d.list = pages := by
    rw [Pages.prepare_eq, hpages, hwork]
    rfl
  rw [State.startPass, State.issueAll_eq, funext requests, ← prepared]
  rfl

/-- Settles O38: the positions that are not still out are issued anew. -/
theorem passAbandoned : Obligations.PassAbandoned := by
  unfold Obligations.PassAbandoned
  intro s i d work pages issued short hwork hpages hissued
  have answered : ∀ k, (!stillOut (s.sweep i).positions (s.withdrawn i) k) = true
      ↔ (s.sweep i).positions[k.val]? = some .complete ∨ k ∈ s.withdrawn i := fun k => by
    rw [Bool.not_eq_true', ← Bool.not_eq_true, stillOut_iff]
    tauto
  -- The state in which the new requests are issued.
  obtain ⟨t, ht⟩ : ∃ t, t = ((s.beginPass i d).withdraw i).setSweep i { ((s.beginPass i d).withdraw i).sweep i with
      run := some { start := s.time
                    positions := d.positions.map (afterAbandon (s.sweep i).positions (s.withdrawn i)) } } := ⟨_, rfl⟩
  have own : t.sweep i = { s.sweep i with
      started := (s.sweep i).started + 1, state := .running
      run := some { start := s.time
                    positions := d.positions.map (afterAbandon (s.sweep i).positions (s.withdrawn i)) } } := by
    rw [ht, State.setSweep_sweep, State.withdraw_sweep, State.beginPass_sweep]
  have requests : ∀ r, (d.positions.filter fun k => !stillOut (s.sweep i).positions (s.withdrawn i) k).filterMap
      (fun k => t.requestAt i d k r) = issued r := fun r => by
    rw [t.filterMap_requestAt, hissued r]
    refine List.filterMap_congr fun k _ => ?_
    rw [s.requestAt_beginPass i d (by rw [ht]; simp) (by rw [own]) k r]
    exact if_congr (answered k) rfl rfl
  have positions : d.positions.map (afterAbandon (s.sweep i).positions (s.withdrawn i)) = d.positions.map fun k =>
      if (s.sweep i).positions[k.val]? = some .complete ∨ k ∈ s.withdrawn i then .pending else .deferred := by
    refine List.map_congr_left fun k _ => ?_
    have := answered k
    unfold afterAbandon
    cases h : stillOut (s.sweep i).positions (s.withdrawn i) k with
    | true => rw [h] at this; exact (if_neg fun c => absurd (this.2 c) (by decide)).symm
    | false => rw [h] at this; exact (if_pos (this.1 rfl)).symm
  have prepared : (s.pagesOf i).prepare ((s.sweep i).started + 1) s.time d.list = pages := by
    rw [Pages.prepare_eq, hpages, hwork]
    rfl
  have abandoned : s.abandonPass i d
      = t.issueAll i d (d.positions.filter fun k => !stillOut (s.sweep i).positions (s.withdrawn i) k) := by
    rw [ht]
    rfl
  have port : ∀ p, t.port p = (s.withdraw i).port p := fun p => by rw [ht]; rfl
  have ports : ∀ p, ((s.withdraw i).port p).arb.issues = [] := fun p => by
    rw [State.withdraw_port]
    exact Port.takeIssues_issues _ _
  have conv : (s.withdraw i).conv.arb.issues = [] := Converter.takeIssues_issues _
  rw [abandoned, State.issueAll_eq, funext requests, ← positions, ← prepared, State.issued]
  have tconv : t.conv = (s.withdraw i).conv := by rw [ht]; rfl
  simp only [port, ports, tconv, conv, List.nil_append]
  have tsweeps : t.sweeps = s.sweeps.set i (t.sweep i) := by
    rw [own, ht, State.setSweep_sweeps, State.withdraw_sweep, State.beginPass_sweep]
    simp [State.beginPass]
  rw [tsweeps, own, ht]
  rfl

end Sys2Proof.Machine
end

section
/-! PROOFS. Triggers, SWEEP_FIRE and the period timer; withdrawals, halts and stops (sections 2.5 to 2.9, 3.4 and 5.6). -/

namespace Sys2Proof.Machine

/-! ### The sweep and the slot a payload names (R22) -/

theorem sweepOf_eq_none {p : List Byte} (h : 7 < readNat p 0) : sweepOf p = none :=
  dif_neg (by omega)

theorem sweepOf_eq_some {p : List Byte} {i : SweepNo} (h : readNat p 0 = i.val) : sweepOf p = some i := by
  rw [sweepOf, dif_pos (by omega)]
  exact congrArg some (Fin.ext h)

theorem takeHead_cons {r : Request} {rest : List Request} {k : ReqKind} (h : r.kind = k) :
    takeHead (r :: rest) k = some (r, rest) :=
  if_pos h

theorem State.takeArmExpiry_of_taken {s : State} {i : SweepNo} (h : (s.sweep i).armExpiry = false) :
    s.takeArmExpiry i = s := by
  rw [State.takeArmExpiry, h]

section
variable {s : State} {r : Request} {rest : List Request} {k : ReqKind} (head : s.hand.sweepEngine = r :: rest)
  (kind : r.kind = k)
include head kind

/-- A SWEEP request that names no sweep. -/
theorem State.takeSweep_none (above : 7 < readNat r.payload 0) :
    s.takeSweep k = some (r, { s with hand := { s.hand with sweepEngine := rest } }) := by
  simp only [State.takeSweep, head, takeHead_cons kind, sweepOf_eq_none above]
  rfl

/-- A SWEEP request for a sweep that may have a first expiry to take. -/
theorem State.takeSweep_some {i : SweepNo} (number : readNat r.payload 0 = i.val) :
    s.takeSweep k = some (r, (s.setHand { s.hand with sweepEngine := rest }).takeArmExpiry i) := by
  simp only [State.takeSweep, head, takeHead_cons kind, sweepOf_eq_some number]

/-- A SWEEP request for a sweep with no first expiry to take. -/
theorem State.takeSweep_taken {i : SweepNo} (number : readNat r.payload 0 = i.val)
    (taken : (s.sweep i).armExpiry = false) :
    s.takeSweep k = some (r, { s with hand := { s.hand with sweepEngine := rest } }) := by
  exact (State.takeSweep_some head kind number).trans
    (congrArg (fun t => some (r, t)) (State.takeArmExpiry_of_taken taken))

end

/-! ### Triggers (R31 to R33, R42) -/

section
variable {s : State} {i : SweepNo} {d : SweepDef}

theorem State.triggerOutcome_ignored
    (h : (s.sweep i).state = .empty ∨ (s.sweep i).state = .idle ∨ (s.sweep i).state = .stopping) :
    s.triggerOutcome i = .ignored := by
  rcases h with h | h | h <;> rw [State.triggerOutcome, h]

theorem State.trigger_ignored
    (h : (s.sweep i).state = .empty ∨ (s.sweep i).state = .idle ∨ (s.sweep i).state = .stopping) : s.trigger i = s := by
  rw [State.trigger, State.triggerOutcome_ignored h]

theorem Sweep.exhausted_iff (w : Sweep) : w.exhausted = true ↔ w.started = 0xFFFFFFFF := beq_iff_eq

theorem Sweep.not_exhausted {w : Sweep} (h : w.started ≠ 0xFFFFFFFF) : w.exhausted = false :=
  beq_false_of_ne h

variable (hd : (s.sweep i).defn = some d)
include hd

theorem State.triggerOutcome_started (hs : (s.sweep i).state = .armed) (left : (s.sweep i).started ≠ 0xFFFFFFFF) :
    s.triggerOutcome i = .started := by
  simp only [State.triggerOutcome, hs, hd, Sweep.not_exhausted left, Bool.false_eq_true, if_false]

theorem State.triggerOutcome_exhausted (hs : (s.sweep i).state = .armed) (spent : (s.sweep i).started = 0xFFFFFFFF) :
    s.triggerOutcome i = .missed := by
  simp only [State.triggerOutcome, hs, hd, (Sweep.exhausted_iff _).2 spent, if_true]

theorem State.triggerOutcome_restarted (hs : (s.sweep i).state = .running) (policy : d.overrun = .restart)
    (left : (s.sweep i).started ≠ 0xFFFFFFFF) : s.triggerOutcome i = .restarted := by
  simp only [State.triggerOutcome, hs, hd, policy, Sweep.not_exhausted left, Bool.false_eq_true, if_false]

theorem State.triggerOutcome_missed (hs : (s.sweep i).state = .running)
    (cause : d.overrun = .skip ∨ (s.sweep i).started = 0xFFFFFFFF) : s.triggerOutcome i = .missed := by
  simp only [State.triggerOutcome, hs, hd]
  rcases cause with policy | spent
  · simp only [policy]
  · cases d.overrun <;> simp only [(Sweep.exhausted_iff _).2 spent, if_true]

theorem State.trigger_started (hs : (s.sweep i).state = .armed) (left : (s.sweep i).started ≠ 0xFFFFFFFF) :
    s.trigger i = s.startPass i d := by
  simp only [State.trigger, State.triggerOutcome_started hd hs left, hd]

theorem State.trigger_restarted (hs : (s.sweep i).state = .running) (policy : d.overrun = .restart)
    (left : (s.sweep i).started ≠ 0xFFFFFFFF) : s.trigger i = s.abandonPass i d := by
  simp only [State.trigger, State.triggerOutcome_restarted hd hs policy left, hd]

/-- A missed trigger in RUNNING is counted. -/
theorem State.trigger_missed (hs : (s.sweep i).state = .running)
    (cause : d.overrun = .skip ∨ (s.sweep i).started = 0xFFFFFFFF) :
    s.trigger i = s.setSweep i { s.sweep i with missed := min 65535 ((s.sweep i).missed + 1) } := by
  simp only [State.trigger, State.triggerOutcome_missed hd hs cause]
  exact if_neg (by rw [hs]; decide)

/-- A missed trigger in ARMED, with no pass number left, is counted and the sweep leaves (R42). -/
theorem State.trigger_exhausted (hs : (s.sweep i).state = .armed) (spent : (s.sweep i).started = 0xFFFFFFFF) :
    s.trigger i = (s.setSweep i { s.sweep i with
      missed := min 65535 ((s.sweep i).missed + 1), state := .idle, timer := none, armExpiry := false }).leaveNotice i := by
  simp only [State.trigger, State.triggerOutcome_exhausted hd hs spent]
  rw [if_pos hs]
  rw [State.countMissed, State.setSweep_sweep, State.setSweep_setSweep, State.setSweep_leave]
  rfl

end

theorem Sweep.runningPass_of_not_running {w : Sweep} (h : w.state ≠ .running) : w.runningPass = 0 :=
  if_neg h

/-- SWEEP_FIRE on an ARMED or RUNNING sweep: the trigger, and a reply that tells its outcome. -/
theorem exec_sweepFire_trigger {s t : State} {r : Request} {rest : List Request} (head : s.hand.sweepEngine = r :: rest)
    (kind : r.kind = .sweepFire) (ht : t = { s with hand := { s.hand with sweepEngine := rest } }) {i : SweepNo}
    (number : readNat r.payload 0 = i.val) (taken : (s.sweep i).armExpiry = false)
    (hs : (s.sweep i).state = .armed ∨ (s.sweep i).state = .running) :
    exec .sweepFire s = .next ((t.trigger i).reply r.ref .ok
      ([byteOf i.val, (t.triggerOutcome i).code] ++ be32 ((t.trigger i).sweep i).runningPass)) := by
  have same : (t.sweep i).state = (s.sweep i).state := by rw [ht]; rfl
  simp only [exec, execSweepFire, State.takeSweep_taken head kind number taken, sweepOf_eq_some number, ← ht, same]
  rcases hs with hs | hs <;> rw [hs]

/-- Settles O35: triggers by state and policy, and SWEEP_FIRE by sweep number and state. -/
theorem triggersAndFire : Obligations.TriggersAndFire := by
  unfold Obligations.TriggersAndFire
  refine ⟨fun s i => State.trigger_ignored, fun s i d hd => ⟨State.trigger_started hd, State.trigger_restarted hd,
    State.trigger_missed hd, State.trigger_exhausted hd⟩, fun s r rest head kind => ⟨fun above => ?_,
    fun i number taken => ⟨fun hs => ?_, fun hs => ?_, fun d t ht hd => ?_⟩⟩⟩
  · simp only [exec, execSweepFire, State.takeSweep_none head kind above, sweepOf_eq_none above]
    rfl
  · have same : (State.sweep { s with hand := { s.hand with sweepEngine := rest } } i).state = .empty := hs
    simp only [exec, execSweepFire, State.takeSweep_taken head kind number taken, sweepOf_eq_some number, same]
    rfl
  · have same : (State.sweep { s with hand := { s.hand with sweepEngine := rest } } i).state = (s.sweep i).state := rfl
    simp only [exec, execSweepFire, State.takeSweep_taken head kind number taken, sweepOf_eq_some number, same]
    rcases hs with hs | hs <;> rw [hs] <;> rfl
  · have own : t.sweep i = s.sweep i := by rw [ht]; rfl
    have fired := exec_sweepFire_trigger head kind ht number taken
    have hd' : (t.sweep i).defn = some d := own ▸ hd
    have sweeps : t.sweeps = s.sweeps := by rw [ht]
    refine ⟨fun hs left => ?_, fun hs spent => ?_, fun hs policy left => ?_, fun hs cause => ?_⟩
    · rw [fired (.inl hs), State.triggerOutcome_started hd' (own ▸ hs) (own ▸ left),
        State.trigger_started hd' (own ▸ hs) (own ▸ left), State.startPass_sweep, own]
      rfl
    · rw [fired (.inl hs), State.triggerOutcome_exhausted hd' (own ▸ hs) (own ▸ spent),
        State.trigger_exhausted hd' (own ▸ hs) (own ▸ spent), Sweep.runningPass_of_not_running, own, State.setSweep, sweeps]
      · rfl
      · rw [State.leaveNotice, State.answerWaiters_sweep, State.setSweep_sweep]
        simp
    · rw [fired (.inr hs), State.triggerOutcome_restarted hd' (own ▸ hs) policy (own ▸ left),
        State.trigger_restarted hd' (own ▸ hs) policy (own ▸ left), State.abandonPass_sweep, own]
      rfl
    · rw [fired (.inr hs), State.triggerOutcome_missed hd' (own ▸ hs) (by rw [own]; exact cause),
        State.trigger_missed hd' (own ▸ hs) (by rw [own]; exact cause), State.setSweep_sweep, own, State.setSweep, sweeps]
      simp only [Sweep.runningPass, hs, if_true]
      rfl

/-! ### The period timer (R27, R28) -/

/-- What is handed to the owners has no part in a trigger. -/
theorem State.trigger_setHand (s : State) (h : HandOff) (i : SweepNo) :
    (s.setHand h).trigger i = (s.trigger i).setHand h := by
  have start : ∀ d, (s.setHand h).startPass i d = (s.startPass i d).setHand h := fun d => by
    rw [State.startPass, State.startPass, State.issueAll_eq, State.issueAll_eq]
    rfl
  have abandon : ∀ d, (s.setHand h).abandonPass i d = (s.abandonPass i d).setHand h := fun d => by
    simp only [State.abandonPass, State.issueAll_eq]
    rfl
  have outcome : (s.setHand h).triggerOutcome i = s.triggerOutcome i := rfl
  simp only [State.trigger, outcome, State.setHand_sweep]
  split
  · exact start _
  · exact abandon _
  · rw [apply_ite (fun t : State => t.setHand h)]
    rfl
  · rfl

theorem State.periodExpires_setHand (s : State) (h : HandOff) (i : SweepNo) (t : Time) :
    (s.setHand h).periodExpires i t = (s.periodExpires i t).setHand h := by
  simp only [State.periodExpires]
  exact State.trigger_setHand (s.setSweep i _) h i

/-- A trigger hands nothing to an owner, and sets no mark of a first expiry. -/
theorem State.trigger_hand (s : State) (i : SweepNo) : (s.trigger i).hand = s.hand := by
  rcases s.trigger_cases i with e | ⟨d, _, _, e⟩ | ⟨d, _, _, _, e⟩ | ⟨d, _, _, e⟩ | ⟨d, _, _, e⟩ <;> rw [e]
  · exact s.startPass_hand i d
  · exact s.abandonPass_hand i d
  · rfl
  · rfl

theorem State.trigger_armExpiry {s : State} {i : SweepNo} (h : (s.sweep i).armExpiry = false) :
    ((s.trigger i).sweep i).armExpiry = false := by
  rcases s.trigger_cases i with e | ⟨d, _, _, e⟩ | ⟨d, _, _, _, e⟩ | ⟨d, _, _, e⟩ | ⟨d, _, _, e⟩ <;> rw [e]
  · exact h
  · rw [State.startPass_sweep]; exact h
  · rw [State.abandonPass_sweep]; exact h
  · rw [State.countMissed, State.setSweep_sweep]; exact h
  · rw [State.setSweep_leave, State.leaveNotice, State.answerWaiters_sweep, State.setSweep_sweep]

theorem State.periodExpires_hand (s : State) (i : SweepNo) (t : Time) : (s.periodExpires i t).hand = s.hand :=
  State.trigger_hand _ i

theorem State.periodExpires_armExpiry (s : State) (i : SweepNo) (t : Time) :
    ((s.periodExpires i t).sweep i).armExpiry = false :=
  State.trigger_armExpiry (by rw [State.setSweep_sweep])

theorem exec_periodExpiry {s : State} {i : SweepNo} (h : (s.sweep i).timer = some s.time) :
    exec (.periodExpiry i) s = .next (s.periodExpires i s.time) := by
  simp only [exec, execPeriodExpiry, h, if_true]

/-- A SWEEP request finds the same whether the first expiry is taken before it or with it. -/
theorem State.takeSweep_periodExpires {s : State} {r : Request} {rest : List Request} {k : ReqKind}
    (head : s.hand.sweepEngine = r :: rest) (kind : r.kind = k) {i : SweepNo} (number : readNat r.payload 0 = i.val)
    (mark : (s.sweep i).armExpiry = true) (timer : (s.sweep i).timer = some s.time) :
    s.takeSweep k = (s.periodExpires i s.time).takeSweep k := by
  have hand := s.periodExpires_hand i s.time
  rw [State.takeSweep_some head kind number,
    State.takeSweep_taken (hand ▸ head) kind number (s.periodExpires_armExpiry i s.time), hand, State.takeArmExpiry,
    State.setHand_sweep, mark, timer]
  simp only [State.periodExpires_setHand]
  rfl

/-- Settles O36: the expiry at its time, and each SWEEP request after it. -/
theorem periodExpiryTriggers : Obligations.PeriodExpiryTriggers := by
  unfold Obligations.PeriodExpiryTriggers
  refine ⟨fun s i d period phase timer hd source => ?_,
    fun s u r rest i c head number mark timer known expired => ?_⟩
  · rw [exec_periodExpiry timer, State.periodExpires]
    simp only [hd, source]
    rfl
  · have next : s.periodExpires i s.time = u := by
      have := (exec_periodExpiry timer).symm.trans expired
      exact Host.Outcome.next.inj this
    have same := next ▸ State.takeSweep_periodExpires head rfl number mark timer
    obtain ⟨x, hx⟩ : ∃ x, s.takeSweep r.kind = some x := ⟨_, State.takeSweep_some head rfl number⟩
    have hu : u.takeSweep r.kind = some x := same ▸ hx
    simp only [List.mem_cons, Prod.mk.injEq, List.not_mem_nil, or_false] at known
    rcases known with ⟨rfl, k⟩ | ⟨rfl, k⟩ | ⟨rfl, k⟩ | ⟨rfl, k⟩ | ⟨rfl, k⟩ | ⟨rfl, k⟩ <;> rw [k] at hx hu
    · simp only [exec, execSweepSet, hx, hu]
    · simp only [exec, execSweepClear, hx, hu]
    · simp only [exec, execSweepArm, hx, hu]
    · simp only [exec, execSweepFire, hx, hu]
    · simp only [exec, execSweepStop, hx, hu]
    · simp only [exec, execSweepGet, hx, hu]

end Sys2Proof.Machine
end

section
/-! PROOFS. Withdrawals, halts and stops (sections 2.9, 3.4 and 5.6). -/

namespace Sys2Proof.Machine

/-! ### What an arbiter takes, request by request (R89, log 5) -/

theorem Port.takeIssues_nil {q : Port} (h : q.arb.issues = []) (now : Time) : q.takeIssues now = q := by
  rw [Port.takeIssues, h, List.foldl_nil, ← h]

theorem Converter.takeIssues_nil {c : Converter} (h : c.arb.issues = []) : c.takeIssues = c := by
  rw [Converter.takeIssues, h, List.foldl_nil, ← h]

/-- The first issue taken, and then the rest. -/
theorem Port.takeIssues_takeIssue {q : Port} (h : q.arb.issues ≠ []) (now : Time) :
    q.takeIssues now = (q.takeIssue now).takeIssues now := by
  obtain ⟨r, rest, hq⟩ := List.exists_cons_of_ne_nil h
  have first : q.takeIssue now = Port.arrive { q with arb := { q.arb with issues := rest } } now r := by
    rw [Port.takeIssue, hq]
  have none := Port.arrive_issues q now r []
  have left := Port.arrive_issues q now r rest
  simp only [Port.takeIssues, first, hq, List.foldl_cons, none, left]

theorem Converter.takeIssues_takeIssue {c : Converter} (h : c.arb.issues ≠ []) :
    c.takeIssues = c.takeIssue.takeIssues := by
  obtain ⟨r, rest, hc⟩ := List.exists_cons_of_ne_nil h
  simp only [Converter.takeIssues, Converter.takeIssue, hc]
  rfl

/-! ### A withdrawal (R94) -/

theorem keepOthers_eq (i : SweepNo) (l : List ProbeEntry) :
    keepOthers i l = l.filter (fun e => decide (e.req.sweep ≠ i)) := by
  refine List.filter_congr fun e _ => ?_
  by_cases h : e.req.sweep = i <;> simp [ProbeEntry.ofSweep, h]

theorem mem_positionsOf {i : SweepNo} {l : List ProbeEntry} {k : Fin 16} :
    k ∈ positionsOf i l ↔ ∃ e, e ∈ l ∧ e.req.sweep = i ∧ e.req.position = k := by
  simp [positionsOf, ProbeEntry.ofSweep, and_assoc]

theorem Port.withdraw_eq (q : Port) (now : Time) (i : SweepNo) : q.withdraw now i = { q.takeIssues now with
    arb := { (q.takeIssues now).arb with
      pending := (q.takeIssues now).arb.pending.filter (fun e => decide (e.req.sweep ≠ i)) }
    settling := (q.takeIssues now).settling.filter (fun m => decide (m.entry.req.sweep ≠ i)) } := by
  have settling : (q.takeIssues now).settling.filter (fun m => !m.entry.ofSweep i)
      = (q.takeIssues now).settling.filter (fun m => decide (m.entry.req.sweep ≠ i)) := by
    refine List.filter_congr fun m _ => ?_
    by_cases h : m.entry.req.sweep = i <;> simp [ProbeEntry.ofSweep, h]
  rw [Port.withdraw, settling, keepOthers_eq]

theorem Port.mem_withdrawn {q : Port} {now : Time} {i : SweepNo} {k : Fin 16} : k ∈ q.withdrawn now i ↔
    (∃ e, e ∈ (q.takeIssues now).arb.pending ∧ e.req.sweep = i ∧ e.req.position = k)
      ∨ ∃ m, m ∈ (q.takeIssues now).settling ∧ m.entry.req.sweep = i ∧ m.entry.req.position = k := by
  simp only [Port.withdrawn, List.mem_append, mem_positionsOf, List.mem_map, exists_exists_and_eq_and]

/-! ### A halt (R55, R56) -/

/-- What is still out after a withdrawal, when the position whose fault halts the pass is no longer. -/
theorem stillOut_set_complete {old : List PosState} {removed : List (Fin 16)} {j k : Fin 16} (hk : k.val < old.length) :
    stillOut (old.set j.val .complete) removed k
      = decide (old[k.val]? ≠ some .complete ∧ k ≠ j ∧ k ∉ removed) := by
  rw [Bool.eq_iff_iff, stillOut_iff, decide_eq_true_eq, List.getElem?_set]
  by_cases e : k = j
  · simp [e, e ▸ hk]
  · have : ¬j.val = k.val := fun c => e (Fin.ext c.symm)
    simp [e, this]

/-- Settles O39: the withdrawal whole, the issues one by one, and the halt in its order. -/
theorem withdrawalAndHalt : Obligations.WithdrawalAndHalt := by
  unfold Obligations.WithdrawalAndHalt
  refine ⟨fun s i p q c hq hc => ?_, fun s u p issued taken => ?_, fun s u issued taken => ?_,
    fun s i d c n u hn inPass hu => ?_⟩
  · subst hq hc
    refine ⟨?_, ?_, fun k => Port.mem_withdrawn, fun k => mem_positionsOf, fun h => Port.takeIssues_nil h _,
      Converter.takeIssues_nil, Port.takeIssues_issues _ _, Converter.takeIssues_issues _⟩
    · rw [State.withdraw_port, Port.withdraw_eq]
    · rw [State.withdraw_conv, Converter.withdraw, keepOthers_eq]
  · obtain rfl := Host.Outcome.next.inj taken
    rw [State.setPort_port]
    exact Port.takeIssues_takeIssue issued _
  · obtain rfl := Host.Outcome.next.inj taken
    exact Converter.takeIssues_takeIssue issued
  · have count : n = d.positions.countP
        (stillOut ((s.sweep i).positions.set c.req.position.val .complete) (s.withdrawn i)) := by
      rw [hn]
      exact (List.countP_congr fun k hk => by rw [stillOut_set_complete (inPass k hk)]).symm
    rw [State.haltPass, State.endPass_eq s i _ d n count, hu]
    rfl

/-! ### SWEEP_STOP (R38 to R40) -/

theorem State.stopRunning_eq {s : State} {i : SweepNo} {d : SweepDef} {ref : ReqRef} {n : Nat} {u : State}
    (hu : u = s.endPass i (s.sweep i).positions d)
    (hs : (u.sweep i).state = if n = 0 then SweepState.idle else .stopping) (hh : (u.sweep i).held = (s.sweep i).held) :
    s.stopRunning i d ref = if n = 0 then u.reply ref .ok [byteOf i.val, 1]
      else u.setSweep i { u.sweep i with held := (s.sweep i).held ++ [ref] } := by
  simp only [State.stopRunning, ← hu, State.sweepItems, hs, hh]
  by_cases zero : n = 0
  · simp only [if_pos zero, if_true]
    rfl
  · simp only [if_neg zero, reduceCtorEq, if_false]

/-- Settles O40: SWEEP_STOP by sweep number and state. -/
theorem sweepStopCases : Obligations.SweepStopCases := by
  unfold Obligations.SweepStopCases
  intro s r rest t head kind ht
  refine ⟨fun above => ?_, fun i number taken => ?_⟩
  · simp only [exec, execSweepStop, State.takeSweep_none head kind above, sweepOf_eq_none above, ← ht]
  · have own : t.sweep i = s.sweep i := by rw [ht]; rfl
    have sweeps : t.sweeps = s.sweeps := by rw [ht]
    have found := State.takeSweep_taken head kind number taken
    rw [← ht] at found
    refine ⟨fun hs => ?_, fun hs => ?_, fun hs => ?_, fun hs => ?_, fun d n u hs hd hn hu => ?_⟩
    · simp only [exec, execSweepStop, found, sweepOf_eq_some number, own, hs, State.sweepItems]
      rfl
    · simp only [exec, execSweepStop, found, sweepOf_eq_some number, own, hs, State.sweepItems]
      rfl
    · simp only [exec, execSweepStop, found, sweepOf_eq_some number, own, hs, State.sweepItems, State.setSweep_leave,
        State.leaveNotice, State.answerWaiters_sweep, State.setSweep_sweep]
      rw [State.setSweep, sweeps]
      rfl
    · simp only [exec, execSweepStop, found, sweepOf_eq_some number, own, hs, State.setSweep, sweeps]
    · have count : n = d.positions.countP (stillOut (t.sweep i).positions (t.withdrawn i)) := by
        rw [hn, own]
        exact List.countP_congr fun k _ => by rw [stillOut_iff, decide_eq_true_eq]
      have ended : u = t.endPass i (t.sweep i).positions d := by
        rw [State.endPass_eq t i (t.sweep i).positions d n count, own]
        exact hu
      have after : u.sweep i = { s.sweep i with
          run := none, remnant := n, state := (if n = 0 then .idle else .stopping), timer := none, armExpiry := false } := by
        rw [hu, State.leaveNotice, State.answerWaiters_sweep, State.setSweep_sweep]
      have stop := State.stopRunning_eq (ref := r.ref) ended (by rw [after]) (by rw [after, own])
      simp only [exec, execSweepStop, found, sweepOf_eq_some number, own, hs, hd]
      rw [stop, own]

end Sys2Proof.Machine
end

section
/-! PROOFS. Publication in its order, and the handling of a completion (sections 3.3 to 3.6). -/

namespace Sys2Proof.Machine

/-! ### Publication (R63 to R66) -/

theorem Pages.publish_eq (g : Pages) (now : Time) (h : Page)
    (hh : h = { g.work with publish := now, faults := g.work.faultCount }) :
    g.publish now = (if g.publishedB then { a := h, b := g.b, publishedB := false, workUsed := false }
        else { a := g.a, b := h, publishedB := true, workUsed := false })
      ∧ (g.publish now).published = h := by
  subst hh
  obtain ⟨a, b, published, used⟩ := g
  cases published <;> exact ⟨rfl, rfl⟩

/-- The pass limit, compared as numbers. -/
theorem limitReached_iff (d : SweepDef) (n : Word) :
    limitReached d n = true ↔ d.passLimit ≠ 0 ∧ n.toNat = d.passLimit.toNat := by
  have widened : (d.passLimit.setWidth 32).toNat = d.passLimit.toNat := by
    have := d.passLimit.isLt
    rw [BitVec.toNat_setWidth]
    omega
  rw [limitReached, decide_eq_true_eq, ← widened]
  exact and_congr_right fun _ => BitVec.toNat_inj.symm

theorem State.setPages_pagesOf_self (s : State) (i : SweepNo) (x : Pages) : (s.setPages i x).pagesOf i = x := by
  simp [State.setPages, State.pagesOf]

/-- Settles O44: each stage of a publication is the statement's. -/
theorem publicationInOrder : Obligations.PublicationInOrder := by
  unfold Obligations.PublicationInOrder
  intro s i d a b e f g w hg hw hpages ha hb he hf
  obtain ⟨exchanged, page⟩ := (s.pagesOf i).publish_eq s.time g hg
  have published : s.publishPage i = a := by
    rw [ha, hpages, hw, ← exchanged]
    rfl
  have apages : (a.pagesOf i).published = g := by
    rw [← published, State.publishPage, State.setSweep_pagesOf, State.setPages_pagesOf_self, page]
  have asweep : a.sweep i = w := by rw [← published, State.publishPage, State.setSweep_sweep, hw]
  have answered : a.answerSatisfied i = b := by
    have chosen : (fun v : Waiter => v.sweep == i && decide (v.passHeld < g.pass))
        = fun v => decide (v.sweep = i ∧ v.passHeld < g.pass) := by
      funext v
      rw [Bool.eq_iff_iff]
      simp
    have left : (fun v : Waiter => !decide (v.sweep = i ∧ v.passHeld < g.pass))
        = fun v => decide (¬(v.sweep = i ∧ v.passHeld < g.pass)) := by
      funext v
      exact decide_not.symm
    have waiters : a.waiters = s.waiters := by rw [ha]
    have link : a.link = s.link := by rw [ha]
    simp only [State.answerSatisfied, apages, chosen, State.answerWaiters_eq, left, waiters, link]
    rw [hb]
    rfl
  have bpages : (b.pagesOf i).published = g := by rw [← answered]; exact apages
  have bsweep : b.sweep i = w := by rw [← answered]; exact asweep
  have notified : b.notifyPass i d = e := by
    rw [he, State.notifyPass, passItems, bpages, bsweep, hg]
  have esweep : e.sweep i = w := by
    rw [he]
    split
    · rw [State.offerEvent_sweep, bsweep]
    · exact bsweep
  have next : e.afterPublication i d = f := by
    rw [hf, State.afterPublication, esweep, State.setSweep_leave]
    exact if_congr (limitReached_iff d w.sinceArm) rfl rfl
  rw [State.publish, published, answered, notified, next]
  rfl

/-! ### Completions (R49 to R56, R40) -/

/-- A completion is handled after its copy is sent. -/
theorem exec_completion {s : State} {r : Resource} {c : Completion} {rest : List Completion}
    (done : (s.arb r).done = c :: rest) : exec (.completion r) s = .next
      ((State.sendCopy { s.setArb r { s.arb r with done := rest } with free := s.free + 1 } c
        (Config.copyAtOnce s.free)).handleCompletion c) := by
  simp only [exec, execCompletion, done]
  rfl

section
variable {t : State} {c : Completion} {d : SweepDef} (hd : (t.sweep c.req.sweep).defn = some d)

theorem State.handleCompletion_stopping (hs : (t.sweep c.req.sweep).state = .stopping) :
    t.handleCompletion c = t.remnantEnds c.req.sweep := by
  simp only [State.handleCompletion, hs]

include hd

theorem State.handleCompletion_pending (hs : (t.sweep c.req.sweep).state = .running)
    (hp : (t.sweep c.req.sweep).positions[c.req.position.val]? = some .pending) :
    t.handleCompletion c = if c.status ≠ .done ∧ d.faultPolicy = .halt then t.haltPass c.req.sweep d c
      else t.writeCompletion c.req.sweep d c := by
  simp only [State.handleCompletion, hs, hd, hp]

theorem State.handleCompletion_deferred (hs : (t.sweep c.req.sweep).state = .running)
    (hp : (t.sweep c.req.sweep).positions[c.req.position.val]? = some .deferred) :
    t.handleCompletion c = t.reissueDeferred c.req.sweep d c.req.position := by
  simp only [State.handleCompletion, hs, hd, hp]

end

/-- Settles O45: the copy is sent, and then the completion handled by the row of Table 3-2. -/
theorem completionHandled : Obligations.CompletionHandled := by
  unfold Obligations.CompletionHandled
  rintro s r c rest i k t done rfl rfl ⟨u, hu, ht⟩
  have sent : t = State.sendCopy { s.setArb r { s.arb r with done := rest } with free := s.free + 1 } c
      (Config.copyAtOnce s.free) := by
    rw [ht, hu]
    have inbox := State.setArb_inbox s r { s.arb r with done := rest }
    simp only [State.sendCopy, State.setInbox, inbox]
  have sweeps : t.sweeps = s.sweeps := by rw [sent]; simp
  have pages : t.pages = s.pages := by rw [sent]; simp
  have own : t.sweep c.req.sweep = s.sweep c.req.sweep := by simp only [State.sweep, sweeps]
  have page : t.pagesOf c.req.sweep = s.pagesOf c.req.sweep := by simp only [State.pagesOf, pages]
  rw [exec_completion done, ← sent]
  refine ⟨fun d p hs hd hr => ⟨fun hp status u hu => ?_, fun hp fault policy => ?_, fun hp => ?_⟩, fun hs more => ?_,
    fun hs last => ?_⟩
  · have positions : (t.sweep c.req.sweep).positions = p.positions := by rw [own, Sweep.positions, hr]
    have written : (t.setPages c.req.sweep ((t.pagesOf c.req.sweep).write c.req.position c)).setPosition c.req.sweep
        c.req.position .complete = u := by
      rw [hu, State.setPosition, State.setPages_sweep, own, hr, page, State.setPages, State.setSweep, pages, sweeps]
      rfl
    have complete : (u.sweep c.req.sweep).allComplete
        = (p.positions.set c.req.position.val .complete).all (· == .complete) := by
      rw [← written, State.setPosition, State.setSweep_sweep, State.setPages_sweep, Sweep.allComplete, Sweep.positions_set,
        positions]
    have goesOn : ¬(c.status ≠ .done ∧ d.faultPolicy = .halt) := by
      rintro ⟨fault, halt⟩
      rcases status with done | policy
      · exact fault done
      · exact absurd (policy.symm.trans halt) (by decide)
    rw [State.handleCompletion_pending (own ▸ hd) (own ▸ hs) (by rw [positions]; exact hp), if_neg goesOn]
    simp only [State.writeCompletion, written, complete]
  · have positions : (t.sweep c.req.sweep).positions = p.positions := by rw [own, Sweep.positions, hr]
    rw [State.handleCompletion_pending (own ▸ hd) (own ▸ hs) (by rw [positions]; exact hp), if_pos ⟨fault, policy⟩]
  · have positions : (t.sweep c.req.sweep).positions = p.positions := by rw [own, Sweep.positions, hr]
    rw [State.handleCompletion_deferred (own ▸ hd) (own ▸ hs) (by rw [positions]; exact hp), State.reissueDeferred,
      State.setPosition, own, State.setSweep, sweeps, hr]
    rfl
  · rw [State.handleCompletion_stopping (own ▸ hs), State.remnantEnds, own]
    have : (s.sweep c.req.sweep).remnant - 1 ≠ 0 := by omega
    simp only [if_neg this, State.setSweep, sweeps]
  · rw [State.handleCompletion_stopping (own ▸ hs), State.remnantEnds, own]
    have : (s.sweep c.req.sweep).remnant - 1 = 0 := by omega
    simp only [if_pos this, State.releaseHeld, State.setSweep_sweep, State.setSweep_setSweep]
    rw [State.setSweep, sweeps]
    rfl

end Sys2Proof.Machine
end

section
/-! PROOFS. Grants, and how they end: arrivals, the order of grants, phases, faults and clears (Chapters 5 and 6). -/

namespace Sys2Proof.Machine

/-! ### Arrivals (R88 to R90) -/

section
variable {q : Port} {r : ProbeRequest} {rest : List ProbeRequest} (issued : q.arb.issues = r :: rest) (now : Time)
include issued

theorem Port.takeIssue_placed (h : q.state = .idle ∨ q.state = .active) : q.takeIssue now = { q with arb := { q.arb with
    issues := rest, age := q.arb.age + 1
    pending := q.arb.pending ++ [{ req := r, age := q.arb.age + 1, preludeDone := false }] } } := by
  rw [Port.takeIssue, issued]
  exact if_pos (q.places_iff.2 h)

theorem Port.takeIssue_refused (h : q.state = .blocked ∨ q.state = .clearing) : q.takeIssue now = { q with
    arb := { q.arb with
      issues := rest
      done := q.arb.done ++ [{ req := r, status := .portBlocked, data := [], attempts := 0, time := now }] } } := by
  have refused : ¬q.places = true := by rw [q.not_places_iff.2 h]; decide
  rw [Port.takeIssue, issued]
  exact if_neg refused

end

theorem Converter.takeIssue_eq {c : Converter} {r : ProbeRequest} {rest : List ProbeRequest}
    (issued : c.arb.issues = r :: rest) : c.takeIssue = { c with arb := { c.arb with
      issues := rest, age := c.arb.age + 1
      pending := c.arb.pending ++ [{ req := r, age := c.arb.age + 1, preludeDone := false }] } } := by
  rw [Converter.takeIssue, issued]
  rfl

theorem exec_hostEntryArrival {s : State} {p : PortNo} {x : Transfer} {rest : List Transfer}
    (h : (s.port p).arrivals = x :: rest) : exec (.hostEntryArrival p) s
      = .next ((s.setPort p { s.port p with arrivals := rest }).transferArrives p x) := by
  simp only [exec, execHostEntryArrival, h]

/-- Settles O46: what each arbiter takes, by the state of its port. -/
theorem arrivalsTaken : Obligations.ArrivalsTaken := by
  unfold Obligations.ArrivalsTaken
  refine ⟨fun s q rest => ⟨fun p issued => ⟨fun h => ?_, fun h => ?_⟩, fun issued => ?_⟩,
    fun s p x rest arrived => ⟨fun h => ⟨fun room => ?_, fun full => ?_⟩, fun h => ?_⟩⟩
  · exact congrArg (fun q => Host.Outcome.next (s.setPort p q)) (Port.takeIssue_placed issued s.time h)
  · exact congrArg (fun q => Host.Outcome.next (s.setPort p q)) (Port.takeIssue_refused issued s.time h)
  · exact congrArg (fun c => Host.Outcome.next (s.setConv c)) (Converter.takeIssue_eq issued)
  · have places := (s.port p).places_iff.2 h
    rw [exec_hostEntryArrival arrived, State.transferArrives, State.setPort_port]
    have : Port.places { s.port p with arrivals := rest } = true := places
    simp only [this, if_true, room, State.setPort_setPort]
    rfl
  · have places := (s.port p).places_iff.2 h
    rw [exec_hostEntryArrival arrived, State.transferArrives, State.setPort_port]
    have : Port.places { s.port p with arrivals := rest } = true := places
    simp only [this, if_true, if_neg (Nat.not_lt.2 full)]
    rfl
  · have places := (s.port p).not_places_iff.2 h
    rw [exec_hostEntryArrival arrived, State.transferArrives, State.setPort_port]
    have : Port.places { s.port p with arrivals := rest } = false := places
    simp only [this, Bool.false_eq_true, if_false]
    rfl

/-! ### The order of grants (R91, Table 5-2) -/

theorem firstBy_eq_none {α : Type} {before : α → α → Bool} {l : List α} (h : firstBy before l = none) : l = [] := by
  cases l with
  | nil => rfl
  | cons x xs =>
    unfold firstBy at h
    split at h
    · exact absurd h (by simp)
    · split at h <;> exact absurd h (by simp)

/-- The first of a list is before, or as, every other. -/
theorem firstBy_le {α : Type} {before : α → α → Bool} {le : α → α → Prop} (yes : ∀ x y, before x y = true → le x y)
    (no : ∀ x y, before x y = false → le y x) (trans : ∀ x y z, le x y → le y z → le x z) {l : List α} {a : α}
    (h : firstBy before l = some a) (b : α) (hb : b ∈ l) : le a b := by
  have refl : ∀ x, le x x := fun x => by
    cases hx : before x x with
    | true => exact yes x x hx
    | false => exact no x x hx
  induction l generalizing a with
  | nil => exact absurd hb (by simp)
  | cons x xs ih =>
    unfold firstBy at h
    cases hf : firstBy before xs with
    | none =>
      rw [hf] at h
      obtain rfl := Option.some.inj h
      rw [firstBy_eq_none hf, List.mem_singleton] at hb
      exact hb ▸ refl _
    | some y =>
      rw [hf] at h
      simp only at h
      rcases List.mem_cons.1 hb with rfl | hb
      · split at h
        · exact Option.some.inj h ▸ yes _ _ (by assumption)
        · exact Option.some.inj h ▸ refl _
      · have first := ih hf hb
        split at h
        · exact Option.some.inj h ▸ first
        · rename_i notBefore
          exact Option.some.inj h ▸ trans _ _ _ (no _ _ (by simpa using notBefore)) first

theorem exists_firstBy {α : Type} (before : α → α → Bool) {l : List α} (h : l ≠ []) : ∃ a, firstBy before l = some a := by
  cases hf : firstBy before l with
  | none => exact absurd (firstBy_eq_none hf) h
  | some a => exact ⟨a, rfl⟩

/-- The first direct transfer is an oldest. -/
theorem TransferEntry.age_le_of_firstBy {l : List TransferEntry} {a : TransferEntry}
    (h : firstBy TransferEntry.before l = some a) (b : TransferEntry) (hb : b ∈ l) : a.age ≤ b.age := by
  refine firstBy_le (le := fun a b => a.age ≤ b.age) (fun x y e => ?_) (fun x y e => ?_)
    (fun x y z => Nat.le_trans) h b hb
  · have := of_decide_eq_true e
    omega
  · have := of_decide_eq_false e
    omega

/-- The first probe request has the highest priority, and the oldest age among its equals. -/
theorem ProbeEntry.rank_of_firstBy {l : List ProbeEntry} {a : ProbeEntry} (h : firstBy ProbeEntry.before l = some a)
    (b : ProbeEntry) (hb : b ∈ l) :
    b.req.priority < a.req.priority ∨ (b.req.priority = a.req.priority ∧ a.age ≤ b.age) := by
  refine firstBy_le (le := fun a b => b.req.priority < a.req.priority ∨ (b.req.priority = a.req.priority ∧ a.age ≤ b.age))
    (fun x y e => ?_) (fun x y e => ?_) (fun x y z => by omega) h b hb
  · simp only [ProbeEntry.before, Bool.or_eq_true, decide_eq_true_eq, Bool.and_eq_true, beq_iff_eq] at e
    omega
  · simp only [ProbeEntry.before, Bool.or_eq_false_iff, decide_eq_false_iff_not, Bool.and_eq_false_iff,
      beq_eq_false_iff_ne] at e
    omega

theorem ProbeEntry.firstPhase_twoWire {e : ProbeEntry} {d : TwoWire} (h : e.req.copy.body = .twoWire d) :
    e.firstPhase = if d.prelude = none ∨ e.preludeDone = true then .read else .prelude := by
  rw [ProbeEntry.firstPhase, h]
  cases hp : d.prelude <;> cases e.preludeDone <;> simp [hp]

/-- Settles O47: the grant takes what `firstBy` finds, and that is first by rank and age. -/
theorem grantsInOrder : Obligations.GrantsInOrder := by
  unfold Obligations.GrantsInOrder
  refine ⟨fun s p free open' => ⟨fun some => ?_, fun none some => ?_⟩, fun s free some => ?_⟩
  · obtain ⟨x, hx⟩ := exists_firstBy TransferEntry.before some
    refine ⟨x, firstBy_mem hx, TransferEntry.age_le_of_firstBy hx, ?_⟩
    have granted : (s.port p).grant = { s.port p with
        transfers := (s.port p).transfers.erase x, state := .active
        granted := Option.some { work := .transfer x, config := (s.port p).config } } := by
      rw [Port.grant, if_neg (by simp [free, open']), hx]
    exact congrArg (fun q => Host.Outcome.next (s.setPort p q)) granted
  · obtain ⟨x, hx⟩ := exists_firstBy ProbeEntry.before some
    have rank := ProbeEntry.rank_of_firstBy hx
    refine ⟨x, x.firstPhase, firstBy_mem hx, fun y hy => ?_, fun y hy same => ?_, fun d hd => x.firstPhase_twoWire hd, ?_⟩
    · have := rank y hy
      omega
    · have := rank y hy
      omega
    · have granted : (s.port p).grant = { s.port p with
          arb := { (s.port p).arb with pending := (s.port p).arb.pending.erase x }, state := .active
          granted := Option.some { work := .probe x x.firstPhase 1, config := (s.port p).config } } := by
        rw [Port.grant, if_neg (by simp [free, open']), none]
        simp only [firstBy, hx]
        rw [none]
      exact congrArg (fun q => Host.Outcome.next (s.setPort p q)) granted
  · obtain ⟨x, hx⟩ := exists_firstBy ProbeEntry.before some
    have rank := ProbeEntry.rank_of_firstBy hx
    refine ⟨x, firstBy_mem hx, fun y hy => ?_, fun y hy same => ?_, ?_⟩
    · have := rank y hy
      omega
    · have := rank y hy
      omega
    · have granted : s.conv.grant s.time = { s.conv with
          arb := { s.conv.arb with pending := s.conv.arb.pending.erase x }
          granted := Option.some { entry := x, since := s.time, taken := 0, sum := 0 }
          power := if s.conv.power = .off then .waking else .converting, idleTimer := Option.none } := by
        rw [Converter.grant, if_neg (by simp [free]), hx]
      exact congrArg (fun c => Host.Outcome.next (s.setConv c)) granted

/-! ### The end of a grant (R92, R95, R99) -/

theorem State.applyHeld_none {s : State} {p : PortNo} (h : (s.port p).held = none) : s.applyHeld p = s := by
  rw [State.applyHeld, h]

theorem State.applyHeld_some {s : State} {p : PortNo} {h : HeldConfig} (hh : (s.port p).held = some h) :
    s.applyHeld p = (s.setPort p { s.port p with config := h.config, held := none }).reply h.ref .ok
      (configItems p h.config) := by
  rw [State.applyHeld, hh]

/-- Settles O48: the steps of an end, and the emptying in grant order. -/
theorem grantEndsAndPortEmpties : Obligations.GrantEndsAndPortEmpties := by
  unfold Obligations.GrantEndsAndPortEmpties
  refine ⟨fun s a b p after x ha hb => ?_, fun s p => ?_⟩
  · have ended : s.endGrant p after x = b.applyHeld p := by
      rw [hb, ha]
      rfl
    exact ⟨fun h => by rw [ended, State.applyHeld_none h], fun h hh => by rw [ended, State.applyHeld_some hh]; rfl⟩
  · refine ⟨grantOrder TransferEntry.before (s.port p).transfers, grantOrder ProbeEntry.before (s.port p).arb.pending,
      grantOrder_perm _ _, TransferEntry.grantOrder_pairwise _, grantOrder_perm _ _, ProbeEntry.grantOrder_pairwise _, ?_⟩
    rw [State.emptyPending_eq]
    rfl

end Sys2Proof.Machine
end

section
/-! PROOFS. The phases of a probe, its faults, direct transfers, clears and the stretch timer (Chapter 6). -/

namespace Sys2Proof.Machine

/-! ### The operation in progress (R104, R112) -/

section
variable {s : State} {p : PortNo} {g : PortGrant} (granted : (s.port p).granted = some g)
include granted

theorem Port.running_of_granted (free : (s.port p).stretch = none) : (s.port p).running = some g.work := by
  simp only [Port.running, free, granted]

theorem State.setWork_eq (w : PortWork) :
    s.setWork p w = s.setPort p { s.port p with granted := some { g with work := w } } := by
  rw [State.setWork, granted]
  rfl

end

theorem maxAttempts_twoWire {r : ProbeRecord} {d : TwoWire} (h : r.body = .twoWire d) : maxAttempts r = d.retries + 1 := by
  rw [maxAttempts, h]

theorem PortWork.sequence_probe {e : ProbeEntry} {phase : Phase} {n : Nat} {d : TwoWire}
    (h : e.req.copy.body = .twoWire d) : (PortWork.probe e phase n).sequence = phaseSequence d phase := by
  simp only [PortWork.sequence, h]

/-- Settles O49: the end of a prelude by its settle time, and the end of the settle time by the port's state. -/
theorem preludeAndSettle : Obligations.PreludeAndSettle := by
  unfold Obligations.PreludeAndSettle
  refine ⟨fun s p g e n d pre granted free work body prelude => ?_, fun s p k m settling due => ⟨fun h => ?_, fun h => ?_⟩⟩
  · have running := (Port.running_of_granted granted free).trans (congrArg some work)
    refine ⟨fun zero => ?_, fun settles => ?_⟩
    · simp only [exec, execEndOfPreludePhase, running, body, prelude, if_pos zero, State.setWork_eq granted]
      rfl
    · simp only [exec, execEndOfPreludePhase, running, body, prelude, if_neg settles]
      rfl
  · have places := (s.port p).places_iff.2 h
    simp only [exec, execSettleExpiry, settling, due, if_true, places]
    rfl
  · have places := (s.port p).not_places_iff.2 h
    simp only [exec, execSettleExpiry, settling, due, if_true, places, Bool.false_eq_true, if_false]
    rfl

/-- Settles O50: the end of a read phase, and refused bytes by attempts left. -/
theorem readPhaseAndNaks : Obligations.ReadPhaseAndNaks := by
  unfold Obligations.ReadPhaseAndNaks
  refine ⟨fun s p g e n data granted free work length => ?_,
    fun s p g k b granted free => ⟨fun e phase n d work body => ?_, fun t work => ?_⟩⟩
  · have running := (Port.running_of_granted granted free).trans (congrArg some work)
    simp only [exec, execReadPhaseEnd, running, if_pos length]
    rfl
  · have running := (Port.running_of_granted granted free).trans (congrArg some work)
    have sequence := PortWork.sequence_probe (phase := phase) (n := n) body
    have attempts := maxAttempts_twoWire body
    refine ⟨fun address => ⟨fun more => ?_, fun last => ?_⟩, fun written => ?_⟩
    · simp only [exec, execAddrNak, running, sequence, address, attempts, if_pos more, State.setWork_eq granted]
      rfl
    · simp only [exec, execAddrNak, running, sequence, address, attempts, if_neg (Nat.not_lt.2 last)]
      rfl
    · simp only [exec, execDataNak, running, sequence, written]
      rfl
  · have running := (Port.running_of_granted granted free).trans (congrArg some work)
    refine ⟨fun address => ?_, fun written => ?_⟩
    · simp only [exec, execAddrNak, running, PortWork.sequence, address]
      rfl
    · simp only [exec, execDataNak, running, PortWork.sequence, written]
      rfl

section
variable {s : State} {p : PortNo} {g : PortGrant} (granted : (s.port p).granted = some g)
include granted

theorem exec_contention : exec (.contention p) s = .next (s.blockingFault p .contention g.work) := by
  simp only [exec, execContention, granted]

theorem exec_stretchTimerExpiry (due : (s.port p).stretch = some s.time) :
    exec (.stretchTimerExpiry p) s = .next (match g.work with
      | .clear ref pulses => s.finishClear p ref pulses false
      | .probe _ _ _ | .transfer _ => s.blockingFault p .stretchTimeout g.work) := by
  simp only [exec, execStretchTimerExpiry, granted, due, if_true]
  cases g.work <;> rfl

end

/-- Settles O51: the fault of a probe, of a transfer, and the stretch timeout of a clear. -/
theorem blockingFaultsBlock : Obligations.BlockingFaultsBlock := by
  unfold Obligations.BlockingFaultsBlock
  intro s p g granted
  refine ⟨fun e phase n fault work hfault => ⟨?_, fun due => ?_⟩, fun t work => ⟨?_, fun due => ?_⟩,
    fun ref n work due => ?_⟩
  · rw [funext (hfault .contention), exec_contention granted, work]
    rfl
  · rw [funext (hfault .stretchTimeout), exec_stretchTimerExpiry granted due, work]
    rfl
  · rw [exec_contention granted, work]
    rfl
  · rw [exec_stretchTimerExpiry granted due, work]
    rfl
  · rw [exec_stretchTimerExpiry granted due, work]
    rfl

/-- Settles O52: the stretch timer, and the ends of a transfer and of a clear. -/
theorem stretchTransferClear : Obligations.StretchTransferClear := by
  unfold Obligations.StretchTransferClear
  refine ⟨fun s p g granted => ⟨fun free noClear k => ?_, fun ref n k free work made most => ?_, rfl⟩,
    fun s p g granted free => ⟨fun t data work length => ?_, fun ref made pulses work fewest most => ?_⟩⟩
  · simp only [exec, execStretching, free, granted]
    cases work : g.work with
    | probe e phase n => rfl
    | transfer t => rfl
    | clear ref n => exact absurd work (noClear ref n)
  · simp only [exec, execStretching, free, granted, work, if_pos (And.intro made most)]
    rfl
  · have running := (Port.running_of_granted granted free).trans (congrArg some work)
    simp only [exec, execDirectTransferEnd, running, if_pos length]
    rfl
  · have running := (Port.running_of_granted granted free).trans (congrArg some work)
    simp only [exec, execClearEnd, running, if_pos (And.intro fewest most)]
    exact ⟨rfl, rfl⟩

/-! ### PORT requests (sections 6.7 to 6.9) -/

/-- The request at the head of a port owner's list. -/
theorem State.takePort_cons {s : State} {o : PortOwner} {k : ReqKind} {r : Request} {rest : List Request}
    (head : s.hand.ports o = r :: rest) (kind : r.kind = k) :
    s.takePort o k = some (r, s.setHand (s.hand.setPorts o rest)) := by
  simp only [State.takePort, head, takeHead_cons kind]

theorem readPortConfig_eq_some {p : List Byte} {c : PortConfig} : readPortConfig p = some c ↔
    ((readByte p 1 = 0 ∧ c.rate = .r100) ∨ (readByte p 1 = 1 ∧ c.rate = .r400)) ∧ c.stretchMs = readByte p 2
      ∧ 1 ≤ readNat p 2 ∧ readNat p 2 ≤ 100 := by
  have codes : readNat p 1 ≤ 1 ↔ readByte p 1 = 0 ∨ readByte p 1 = 1 :=
    ⟨readByte_zero_or_one, fun h => by rcases h with h | h <;> rw [readNat, h] <;> decide⟩
  obtain ⟨rate, stretch⟩ := c
  unfold readPortConfig
  cases rate <;> grind

/-- Settles O53: what a PORT.SET payload says, and what the port does with it. -/
theorem portSetCases : Obligations.PortSetCases := by
  unfold Obligations.PortSetCases
  refine ⟨fun port rate timeout c => readPortConfig_eq_some, fun s p r rest t head kind ht => ?_⟩
  have taken : s.takePort (.tw p) .portSet = some (r, t) := by
    rw [State.takePort_cons (o := .tw p) head kind, ht]
    rfl
  have port : t.port p = s.port p := by rw [ht]; rfl
  have ports : t.ports = s.ports := by rw [ht]
  refine ⟨fun invalid => ?_, fun c valid => ⟨fun free => ?_, fun granted none => ?_, fun old granted held => ?_⟩⟩
  · simp only [exec, execPortSet, taken, invalid, port]
    rfl
  · simp only [exec, execPortSet, taken, valid, State.offerConfig, port, free, State.setPort, ports]
    rfl
  · obtain ⟨g, hg⟩ := Option.ne_none_iff_exists'.1 granted
    simp only [exec, execPortSet, taken, valid, State.offerConfig, port, hg, none, State.setPort, ports]
  · obtain ⟨g, hg⟩ := Option.ne_none_iff_exists'.1 granted
    simp only [exec, execPortSet, taken, valid, State.offerConfig, port, hg, held, State.setPort, ports]
    rfl

end Sys2Proof.Machine
end

section
/-! PROOFS. PORT requests at a port and at the Two-Wire Ports block (sections 6.7 to 6.9). -/

namespace Sys2Proof.Machine

/-! ### Transfers handed to the arbiter (R90, log 8) -/

/-- Replies of one kind to a list of transfers are replies of the link. -/
theorem State.foldl_reply_eq (s : State) (st : Status) (items : List Byte) (l : List Transfer) :
    l.foldl (fun u x => u.reply x.ref st items) s
      = s.setLink (l.foldl (fun m x => m.reply x.ref (st.code :: items)) s.link) := by
  induction l generalizing s with
  | nil => rfl
  | cons x l ih => exact ih (s.reply x.ref st items)

/-- At a BLOCKED port every transfer is answered PORT_BLOCKED. -/
theorem State.foldl_transferArrives_blocked {s : State} {p : PortNo} (h : (s.port p).state = .blocked)
    (l : List Transfer) : l.foldl (fun u x => u.transferArrives p x) s
      = l.foldl (fun u x => u.reply x.ref .portBlocked ([byteOf p.val, 0] ++ be32 s.time)) s := by
  induction l generalizing s with
  | nil => rfl
  | cons x l ih =>
    have refused : s.transferArrives p x = s.reply x.ref .portBlocked ([byteOf p.val, 0] ++ be32 s.time) := by
      have places : (s.port p).places = false := (s.port p).not_places_iff.2 (.inl h)
      simp only [State.transferArrives, places, Bool.false_eq_true, if_false]
      rfl
    rw [List.foldl_cons, List.foldl_cons, refused]
    exact ih h

/-- A transfer that arrives changes no port's state. -/
theorem State.transferArrives_portState (s : State) (p : PortNo) (x : Transfer) :
    ((s.transferArrives p x).port p).state = (s.port p).state := by
  rcases s.transferArrives_cases p x with ⟨_, _, e⟩ | ⟨_, _, e⟩ | ⟨_, e⟩ <;> rw [e]
  · rw [State.setPort_port]
  · rfl
  · rfl

theorem State.takeArrivals_portState (s : State) (p : PortNo) :
    ((s.takeArrivals p).port p).state = (s.port p).state := by
  have fold : ∀ (l : List Transfer) (u : State),
      ((l.foldl (fun u x => u.transferArrives p x) u).port p).state = (u.port p).state := fun l => by
    induction l with
    | nil => exact fun u => rfl
    | cons x l ih => exact fun u => (ih _).trans (u.transferArrives_portState p x)
  rw [State.takeArrivals, fold, State.setPort_port]

theorem State.transferReply_setArrivals (s : State) (p : PortNo) (x : Transfer) (st : Status) (data : List Byte)
    (now : Time) (l m : List Transfer) :
    (s.setPort p { s.port p with arrivals := l }).transferReply p x st data now
      = ((s.setPort p { s.port p with arrivals := m }).transferReply p x st data now).setPort p
          { ((s.setPort p { s.port p with arrivals := m }).transferReply p x st data now).port p with arrivals := l } := by
  have port : ((s.setPort p { s.port p with arrivals := m }).transferReply p x st data now).port p
      = { s.port p with arrivals := m } := by
    rw [State.transferReply, State.reply_port, State.setPort_port]
  rw [port]
  exact (State.setPort_setLink_setPort s p _ _ _).symm

/-- What is handed to the arbiter and not yet taken has no part in what a transfer does, and stays. -/
theorem State.transferArrives_setArrivals (s : State) (p : PortNo) (x : Transfer) (l m : List Transfer) :
    (s.setPort p { s.port p with arrivals := l }).transferArrives p x
      = ((s.setPort p { s.port p with arrivals := m }).transferArrives p x).setPort p
          { ((s.setPort p { s.port p with arrivals := m }).transferArrives p x).port p with arrivals := l } := by
  have places : ∀ n, Port.places { s.port p with arrivals := n } = (s.port p).places := fun _ => rfl
  simp only [State.transferArrives, State.setPort_port, places]
  split
  · split
    · simp only [State.setPort_port, State.setPort_setPort]
    · exact s.transferReply_setArrivals p x .busy [] 0 l m
  · exact s.transferReply_setArrivals p x .portBlocked [] s.time l m

theorem State.takeArrivals_nil {s : State} {p : PortNo} (h : (s.port p).arrivals = []) : s.takeArrivals p = s := by
  rw [State.takeArrivals, h, List.foldl_nil, ← h]
  exact s.setPort_self p

/-- The first transfer taken, and then the rest. -/
theorem State.takeArrivals_step {s u : State} {p : PortNo} (h : (s.port p).arrivals ≠ [])
    (taken : exec (.hostEntryArrival p) s = .next u) : s.takeArrivals p = u.takeArrivals p := by
  obtain ⟨x, rest, hx⟩ := List.exists_cons_of_ne_nil h
  rw [exec_hostEntryArrival hx] at taken
  obtain rfl := Host.Outcome.next.inj taken
  have arrivals : (((s.setPort p { s.port p with arrivals := rest }).transferArrives p x).port p).arrivals = rest := by
    rw [s.transferArrives_setArrivals p x rest [], State.setPort_port]
  rw [State.takeArrivals, State.takeArrivals, arrivals, hx, List.foldl_cons, s.transferArrives_setArrivals p x [] rest]

/-! ### PORT.XFER (R116) -/

theorem readTransfer_eq_some {ref : ReqRef} {p : List Byte} {x : Transfer} : readTransfer ref p = some x ↔
    addressOk (readByte p 1) (readHalf p 2) = true ∧ readNat p 4 ≤ 16 ∧ readNat p 5 ≤ 16
      ∧ (readNat p 4 ≠ 0 ∨ readNat p 5 ≠ 0) ∧ allZero ((places p 6 16).drop (readNat p 4)) = true
      ∧ x = { ref := ref, mode := modeOf (readByte p 1), addr := (readHalf p 2).setWidth 10
              write := (places p 6 16).take (readNat p 4), readLen := readNat p 5 } := by
  unfold readTransfer
  grind

/-- What a PORT.XFER payload says, byte by byte. -/
theorem readTransfer_iff {port mode w n : Byte} {a : Half} {bytes : List Byte} {ref : ReqRef} {x : Transfer}
    (length : bytes.length = 16) : readTransfer ref ([port, mode] ++ be16 a ++ [w, n] ++ bytes) = some x ↔
      x.ref = ref ∧ ((mode = 7 ∧ x.mode = .seven ∧ a.toNat ≤ 127) ∨ (mode = 10 ∧ x.mode = .ten ∧ a.toNat ≤ 1023))
        ∧ x.addr.toNat = a.toNat ∧ w.toNat ≤ 16 ∧ n.toNat ≤ 16 ∧ ¬(w = 0 ∧ n = 0)
        ∧ x.write = bytes.take w.toNat ∧ x.readLen = n.toNat ∧ (∀ b, b ∈ bytes.drop w.toNat → b = 0) := by
  obtain ⟨p, hp⟩ : ∃ p, p = [port, mode] ++ be16 a ++ [w, n] ++ bytes := ⟨_, rfl⟩
  have fields : readByte p 1 = mode ∧ readHalf p 2 = a ∧ readNat p 4 = w.toNat ∧ readNat p 5 = n.toNat
      ∧ places p 6 16 = bytes := by
    rw [hp]
    exact ⟨rfl, half_eq_append a, rfl, rfl, List.take_of_length_le length.le⟩
  obtain ⟨f1, f2, f4, f5, f6⟩ := fields
  rw [← hp, readTransfer_eq_some, f1, f2, f4, f5, f6]
  have unused : allZero (bytes.drop w.toNat) = true ↔ ∀ b, b ∈ bytes.drop w.toNat → b = 0 := by
    simp only [allZero, List.all_eq_true, beq_iff_eq]
  have some : (w.toNat ≠ 0 ∨ n.toNat ≠ 0) ↔ ¬(w = 0 ∧ n = 0) := by
    rw [← BitVec.toNat_inj (x := w), ← BitVec.toNat_inj (x := n)]
    exact (not_and_or).symm
  have address : addressOk mode a = true ∧ x.mode = modeOf mode ∧ x.addr = a.setWidth 10 ↔
      ((mode = 7 ∧ x.mode = .seven ∧ a.toNat ≤ 127) ∨ (mode = 10 ∧ x.mode = .ten ∧ a.toNat ≤ 1023))
        ∧ x.addr.toNat = a.toNat := by
    constructor
    · rintro ⟨ok, hm, ha⟩
      refine ⟨?_, by rw [ha]; exact (setWidth_addr ok).2.1⟩
      rcases addressOk_iff.1 ok with ⟨rfl, low⟩ | ⟨rfl, low⟩
      · exact .inl ⟨rfl, hm, low⟩
      · exact .inr ⟨rfl, hm, low⟩
    · rintro ⟨code, ha⟩
      have ok : addressOk mode a = true := addressOk_iff.2 (code.imp (fun h => ⟨h.1, h.2.2⟩) (fun h => ⟨h.1, h.2.2⟩))
      refine ⟨ok, ?_, BitVec.eq_of_toNat_eq (ha.trans (setWidth_addr ok).2.1.symm)⟩
      rcases code with ⟨rfl, hm, _⟩ | ⟨rfl, hm, _⟩ <;> exact hm
  rw [unused, some]
  constructor
  · rintro ⟨ok, hw, hn, both, zero, rfl⟩
    obtain ⟨code, ha⟩ := address.1 ⟨ok, rfl, rfl⟩
    exact ⟨rfl, code, ha, hw, hn, both, rfl, rfl, zero⟩
  · rintro ⟨href, code, ha, hw, hn, both, hwrite, hlen, zero⟩
    obtain ⟨ok, hm, haddr⟩ := address.2 ⟨code, ha⟩
    refine ⟨ok, hw, hn, both, zero, ?_⟩
    rw [← href, ← hm, ← haddr, ← hwrite, ← hlen]

/-- Settles O54. -/
theorem portRequestCases : Obligations.PortRequestCases := by
  unfold Obligations.PortRequestCases
  refine ⟨fun port mode w n a bytes ref x => readTransfer_iff, fun s p r rest t head ht => ?_,
    fun s p => State.takeArrivals_nil, fun s u p => State.takeArrivals_step, fun s r rest t b head ht hb => ?_⟩
  · have taken : ∀ k, r.kind = k → s.takePort (.tw p) k = some (r, t) := fun k kind => by
      rw [State.takePort_cons (o := .tw p) head kind, ht]
      rfl
    have port : t.port p = s.port p := by rw [ht]; rfl
    have ports : t.ports = s.ports := by rw [ht]
    refine ⟨fun kind => ?_, fun kind => ⟨fun invalid => ?_, fun x valid => ?_⟩,
      fun kind => ⟨fun open' => ?_, fun blocked => ?_⟩⟩
    · simp only [exec, execPortGet, taken _ kind, port, portItems, Port.pendingCount]
      cases (s.port p).held <;> rcases (s.port p).lastBlock with _ | ⟨_ | _, _⟩ <;> rfl
    · simp only [exec, execPortXfer, taken _ kind, invalid]
      rfl
    · simp only [exec, execPortXfer, taken _ kind, valid, port, State.setPort, ports]
    · have state : ((t.takeArrivals p).port p).state ≠ .blocked := by
        rw [State.takeArrivals_portState, port]
        exact open'
      simp only [exec, execPortClear, taken _ kind, if_neg state]
    · have state : ((t.takeArrivals p).port p).state = .blocked := by
        rw [State.takeArrivals_portState, port]
        exact blocked
      simp only [exec, execPortClear, taken _ kind, if_pos state]
      have arrived := State.foldl_transferArrives_blocked (s := t.setPort p { s.port p with arrivals := [] }) (p := p)
        (by rw [State.setPort_port]; exact blocked) (s.port p).arrivals
      have time : (t.setPort p { s.port p with arrivals := [] }).time = s.time := by rw [ht]; rfl
      rw [time, State.foldl_reply_eq] at arrived
      rw [State.takeArrivals, port, arrived, State.foldl_reply_eq, State.setLink_port, State.setPort_port,
        State.setPort_setLink_setPort, State.setPort, ports]
      rfl
  · have taken : ∀ k, r.kind = k → s.takePort .block k = some (r, t) := fun k kind => by
      rw [State.takePort_cons (o := .block) head kind, ht]
      rfl
    subst hb
    refine ⟨fun kind => ?_, fun kind => ?_, fun kind => ?_, fun kind => ?_⟩
    · simp only [exec, execPortSet, taken _ kind]
    · simp only [exec, execPortGet, taken _ kind]
    · simp only [exec, execPortClear, taken _ kind]
    · simp only [exec, execPortXfer, taken _ kind]
      rfl

end Sys2Proof.Machine
end

section
/-! PROOFS. The analog converter and the Watch Unit (Chapters 7 and 8). -/

namespace Sys2Proof.Machine

/-! ### The converter (R124 to R131) -/

/-- A valid ANALOG.SET. -/
theorem exec_analogSet {s : State} {r : Request} {rest : List Request} (head : s.hand.converter = r :: rest)
    (kind : r.kind = .analogSet) (valid : readNat r.payload 0 ≤ 250) : exec .analogSet s = .next
      (((s.setHand { s.hand with converter := rest }).setConv (s.conv.setDelay s.time (readByte r.payload 0))).reply
        r.ref .ok [s.conv.power.code, readByte r.payload 0]) := by
  simp only [exec, execAnalogSet, head, takeHead_cons kind]
  exact if_neg (Nat.not_lt.2 valid)

/-- Settles O55: the delay by its range and the power state, and the report. -/
theorem analogRequests : Obligations.AnalogRequests := by
  unfold Obligations.AnalogRequests
  intro s r rest t v head ht hv
  subst ht hv
  have readyCode : s.conv.power = .ready → s.conv.power.code = 2 := fun h => by rw [h]; rfl
  refine ⟨fun kind => ⟨fun above => ?_, fun valid other => ?_, fun valid positive ready => ?_, fun zero ready => ?_⟩,
    fun kind => ?_⟩
  · simp only [exec, execAnalogSet, head, takeHead_cons kind]
    exact if_pos above
  · rw [exec_analogSet head kind valid, Converter.setDelay, if_neg other]
    rfl
  · rw [exec_analogSet head kind valid, Converter.setDelay, if_pos ready, idleExpiry, if_neg positive,
      readyCode ready]
    rfl
  · have valid : readNat r.payload 0 ≤ 250 := by
      rw [readNat, zero]
      decide
    rw [exec_analogSet head kind valid, Converter.setDelay, if_pos ready, idleExpiry, if_pos zero, readyCode ready, zero]
    rfl
  · simp only [exec, execAnalogGet, head, takeHead_cons kind, Converter.items]
    have timer : timerBytes s.conv.idleTimer = (match s.conv.idleTimer with
        | none => [0, 0, 0, 0, 0]
        | some x => 1 :: be32 x) := by
      cases s.conv.idleTimer <;> rfl
    have granted : grantedBytes s.conv.granted = (match s.conv.granted with
        | none => [0, 0, 0, 0, 0]
        | some g => [byteOf g.entry.req.sweep.val, byteOf g.entry.req.position.val, byteOf g.entry.req.slot.val]
          ++ (match g.entry.req.copy.body with
              | .analog d => [byteOf d.input.val, byteOf d.samples]
              | .twoWire _ => [0, 0])) := by
      rcases s.conv.granted with _ | g
      · rfl
      · simp only [grantedBytes]
        cases g.entry.req.copy.body <;> rfl
    rw [timer, granted]
    rfl

theorem Conversion.samples_analog {g : Conversion} {d : Analog} (h : g.entry.req.copy.body = .analog d) :
    g.samples = d.samples := by
  rw [Conversion.samples, h]

/-- Settles O56: the three events of the converter at their times. -/
theorem converterEvents : Obligations.ConverterEvents := by
  unfold Obligations.ConverterEvents
  intro s
  refine ⟨fun g waking granted due => ?_, fun g d v converting granted body last due => ?_, fun due ready => ?_⟩
  · have : s.time = g.since + wakeTime := due
    simp only [exec, execEndOfWake, waking, granted, if_pos this]
    rfl
  · have ends : g.taken + 1 = g.samples ∧ s.time = g.endOf g.samples := by
      rw [Conversion.samples_analog body]
      exact ⟨last, due⟩
    simp only [exec, execEndOfConversion, converting, granted, if_pos ends]
    rw [Conversion.samples_analog body]
    rfl
  · simp only [exec, execIdleTimerExpiry, due, ready, and_self, if_true]
    rfl

/-! ### The Watch Unit (R134 to R142) -/

theorem exec_completionCopy {s : State} {c : Completion} {rest : List WatchItem} (h : s.inbox = .copy c :: rest) :
    exec .completionCopy s = .next ((s.setInbox rest).takeCopy c) := by
  simp only [exec, execCompletionCopy, h]

theorem watchSlotOf_eq_none {p : List Byte} (h : 63 < readNat p 0) : watchSlotOf p = none :=
  dif_neg (by omega)

theorem watchSlotOf_eq_some {p : List Byte} {k : Fin 64} (h : readNat p 0 = k.val) : watchSlotOf p = some k := by
  rw [watchSlotOf, dif_pos (by omega)]
  exact congrArg some (Fin.ext h)

theorem State.takeWatch_cons {s : State} {r : Request} {rest : List WatchItem} {k : ReqKind}
    (h : s.inbox = .request r :: rest) (kind : r.kind = k) : s.takeWatch k = some (r, s.setInbox rest) := by
  simp only [State.takeWatch, h, if_pos kind]

theorem State.setWatch_self (s : State) (k : Fin 64) : s.setWatch k (s.watch k) = s := by
  simp [State.setWatch, State.watch]

theorem State.setWatch_setWatch (s : State) (k : Fin 64) (w v : WatchSlot) :
    (s.setWatch k w).setWatch k v = s.setWatch k v := by
  simp [State.setWatch]

/-- Settles O59: a fault by the count and the health, a DONE by the health and the watch part. -/
theorem copiesTaken : Obligations.CopiesTaken := by
  unfold Obligations.CopiesTaken
  refine ⟨fun s c rest k w limit head fault hk hw hl => ?_, fun s c rest k w t head done hk hw ht => ?_⟩
  · subst hk hw hl
    have taken : exec .completionCopy s = .next ((s.setInbox rest).faultCopy c) := by
      rw [exec_completionCopy head, State.takeCopy, if_neg fault]
    rw [taken]
    refine ⟨fun good below => ?_, fun good last => ?_, fun failing atLimit => ?_⟩
    · have notLimit : ¬(s.watch c.req.slot).faults = c.req.copy.faultLimit := by omega
      have stays : ¬((s.watch c.req.slot).health = .good ∧ (s.watch c.req.slot).faults + 1 = c.req.copy.faultLimit) := by
        omega
      simp only [State.faultCopy, State.setInbox_watch, notLimit, stays, if_false]
      rfl
    · have notLimit : ¬(s.watch c.req.slot).faults = c.req.copy.faultLimit := by omega
      simp only [State.faultCopy, State.setInbox_watch, notLimit, if_false, good, last, and_self, if_true]
      rfl
    · simp only [State.faultCopy, State.setInbox_watch, ← atLimit, if_true]
      exact congrArg Host.Outcome.next ((if_neg (by rw [failing]; simp)).trans
        ((s.setInbox rest).setWatch_self c.req.slot))
  · subst hk hw
    have items : healthItems c 0 0
        = [byteOf c.req.slot.val, 0, 0, 0, byteOf c.req.sweep.val] ++ be32 c.req.pass ++ be32 c.time := by
      rw [healthItems, done]
      rfl
    obtain ⟨u, hu⟩ : ∃ u, u = s.setInbox rest := ⟨_, rfl⟩
    have recovered : (if (u.watch c.req.slot).health = .failing
        then (u.setWatch c.req.slot { u.watch c.req.slot with health := .good, faults := 0 }).offerEvent .health
          (healthItems c 0 0)
        else u.setWatch c.req.slot { u.watch c.req.slot with health := .good, faults := 0 }) = t := by
      rw [ht, items, hu]
      rfl
    have taken : exec .completionCopy s = .next (u.doneCopy c) := by
      rw [exec_completionCopy head, State.takeCopy, if_pos done, hu]
    have watches : t.watches
        = s.watches.set c.req.slot { s.watch c.req.slot with health := .good, faults := 0 } := by
      rw [ht]
      split <;> simp
    have watch : t.watch c.req.slot = { s.watch c.req.slot with health := .good, faults := 0 } := by
      simp only [State.watch, watches]
      simp
    refine ⟨fun unwatched => by simp only [taken, State.doneCopy, recovered, unwatched], fun part v new watched hv hnew => ?_⟩
    have moved : t.setWatch c.req.slot { t.watch c.req.slot with watch := new }
        = { t with watches := s.watches.set c.req.slot { watch := new, health := .good, faults := 0 } } := by
      rw [State.setWatch, watch, watches, Vector.set_set]
    have next : part.next (t.watch c.req.slot).watch (part.value c.data) = new := by
      rw [hnew, watch, hv]
      rfl
    simp only [taken, State.doneCopy, recovered, watched, State.evaluateCopy, next]
    rw [moved, watch, hv]
    rfl

/-- Settles O60: the reports of WATCH_GET and WATCH_RESET. -/
theorem watchRequests : Obligations.WatchRequests := by
  unfold Obligations.WatchRequests
  intro s r rest t head ht
  have inbox : s.setInbox rest = t := ht.symm
  have dropped : t.dropped = s.dropped := by rw [ht]
  have watch : ∀ k, t.watch k = s.watch k := fun k => by rw [ht]; rfl
  refine ⟨fun kind => ⟨fun above => ?_, fun k number => ?_⟩, fun kind => ⟨fun above => ?_, fun k number => ?_⟩⟩
  · simp only [exec, execWatchGet, State.takeWatch_cons head kind, inbox, State.watchGet, watchSlotOf_eq_none above, dropped]
  · simp only [exec, execWatchGet, State.takeWatch_cons head kind, inbox, State.watchGet, watchSlotOf_eq_some number,
      State.watchReport, dropped, watch]
  · simp only [exec, execWatchReset, State.takeWatch_cons head kind, inbox, State.watchReset, watchSlotOf_eq_none above]
  · simp only [exec, execWatchReset, State.takeWatch_cons head kind, inbox, State.watchReset, watchSlotOf_eq_some number,
      State.watchReport, State.resetWatch, State.setWatch_watch, State.setWatch_dropped, dropped]
    rw [ht]
    rfl

end Sys2Proof.Machine
end

section
/-! PROOFS. The Result Store: fetch replies, RESULT.FETCH and the waiters (Chapter 4). -/

namespace Sys2Proof.Machine

/-! ### Fetch replies (R78, R186) -/

/-- The bytes of the record at place `j` of a page, none beyond its sixteen. -/
def Page.recordBytes (g : Page) (j : Nat) : List Byte := ((g.records.toList[j]?).map (fun r => r.bytes j)).getD []

theorem Page.recordBytes_of_some {g : Page} {j : Nat} {r : Record} (h : g.records.toList[j]? = some r) :
    g.recordBytes j = r.bytes j := by
  rw [Page.recordBytes, h]
  rfl

/-- What a reply packs: the greatest number of records up to `count` that fits whole. -/
theorem packRecords_greatest (g : Page) (first count room : Nat) : ∃ m, m ≤ count
    ∧ packRecords g first count room = (List.range m).map (fun k => g.recordBytes (first + k))
    ∧ (packRecords g first count room).flatten.length ≤ room
    ∧ (∀ r, m < count → g.records.toList[first + m]? = some r →
        room < (packRecords g first count room).flatten.length + (r.bytes (first + m)).length)
    ∧ ∀ r, 1 ≤ count → g.records.toList[first]? = some r → (r.bytes first).length ≤ room → 1 ≤ m := by
  induction count generalizing first room with
  | zero => exact ⟨0, Nat.le_refl 0, rfl, Nat.zero_le _, fun r h => absurd h (by omega), fun r h => absurd h (by omega)⟩
  | succ count ih =>
    unfold packRecords
    cases hr : g.records.toList[first]? with
    | none =>
      refine ⟨0, Nat.zero_le _, rfl, Nat.zero_le _, fun r _ some => ?_, fun r _ some => ?_⟩
      · rw [Nat.add_zero, hr] at some
        exact absurd some (by simp)
      · exact absurd some (by simp)
    | some r =>
      by_cases fits : (r.bytes first).length ≤ room
      · obtain ⟨m, most, packed, within, next, _⟩ := ih (first + 1) (room - (r.bytes first).length)
        simp only [if_pos fits, List.flatten_cons, List.length_append]
        refine ⟨m + 1, by omega, ?_, by omega, fun r' more some => ?_, fun _ _ _ _ => by omega⟩
        · have here : g.recordBytes (first + 0) = r.bytes first := Page.recordBytes_of_some hr
          rw [packed, List.range_succ_eq_map, List.map_cons, List.map_map, here]
          refine congrArg (List.cons _) (List.map_congr_left fun k _ => ?_)
          rw [Function.comp_apply, Nat.add_assoc, Nat.add_comm 1 k]
        · have place : first + (m + 1) = first + 1 + m := by omega
          rw [place] at some ⊢
          have := next r' (by omega) some
          omega
      · simp only [if_neg fits]
        refine ⟨0, Nat.zero_le _, rfl, Nat.zero_le _, fun r' _ some => ?_, fun r' _ some fits' => ?_⟩
        · rw [Nat.add_zero, hr] at some
          obtain rfl := Option.some.inj some
          simp only [List.flatten_nil, List.length_nil, Nat.add_zero]
          omega
        · obtain rfl := Option.some.inj some
          exact absurd fits' fits

theorem fetchItems_eq (i : SweepNo) (g : Page) (first count : Nat) : fetchItems i g first count =
    [byteOf i.val, byteOf (packRecords g first count 108).length] ++ be32 g.pass ++ be32 g.start
      ++ (packRecords g first count 108).flatten := rfl

theorem length_fetchItems (i : SweepNo) (g : Page) (first count : Nat) :
    (fetchItems i g first count).length = 10 + (packRecords g first count 108).flatten.length := by
  rw [fetchItems_eq, List.length_append]
  rfl

theorem length_recordBytes (r : Record) (k : Nat) : (r.bytes k).length = 8 + r.data.length := by
  rw [Record.bytes, List.length_append]
  rfl

/-- Two numbers below 16 in one byte. -/
theorem byteOf_halves {a b : Nat} (ha : a < 16) (hb : b < 16) : byteOf (16 * a + b) = BitVec.ofNat 4 a ++ BitVec.ofNat 4 b := by
  have low : (BitVec.ofNat 4 b).toNat < 2 ^ 4 := (BitVec.ofNat 4 b).isLt
  refine BitVec.eq_of_toNat_eq ?_
  rw [BitVec.toNat_append, ← Nat.shiftLeft_add_eq_or_of_lt low, Nat.shiftLeft_eq, toNat_byteOf (by omega),
    BitVec.toNat_ofNat, BitVec.toNat_ofNat]
  omega

/-- Settles O42: the records packed are the greatest number that fits; each is the bytes of Table 11-8. -/
theorem fetchPacksWholeRecords : Obligations.FetchPacksWholeRecords := by
  unfold Obligations.FetchPacksWholeRecords
  refine ⟨fun i g first count _ => ?_, fun r k _ attempts data => ?_, rfl⟩
  · obtain ⟨m, most, packed, within, next, one⟩ := packRecords_greatest g first count 108
    refine ⟨m, most, ?_, ?_, fun r more some => ?_, fun r some hr short => one r some hr ?_⟩
    · rw [fetchItems_eq, packed, List.length_map, List.length_range, ← List.flatMap_def]
      rfl
    · rw [length_fetchItems]
      omega
    · have := next r more some
      rw [length_fetchItems]
      omega
    · rw [length_recordBytes]
      omega
  · rw [Record.bytes, byteOf_halves (by omega) (by omega)]
    rfl

/-! ### RESULT.FETCH (R75 to R82) -/

theorem sweepOf_eq_some_iff {p : List Byte} {i : SweepNo} : sweepOf p = some i ↔ readNat p 0 = i.val := by
  refine ⟨fun h => ?_, sweepOf_eq_some⟩
  unfold sweepOf at h
  split at h
  · exact congrArg Fin.val (Option.some.inj h)
  · exact absurd h (by simp)

theorem readMode_eq_some {p : List Byte} {m : FetchMode} : readMode p = some m ↔
    (readByte p 3 = 0 ∧ m = .latest ∧ readWord p 4 = 0 ∧ readHalf p 8 = 0)
      ∨ (readByte p 3 = 1 ∧ m = .exact (readWord p 4) ∧ readHalf p 8 = 0)
      ∨ (readByte p 3 = 2 ∧ m = .newer (readWord p 4) (readHalf p 8) ∧ readHalf p 8 ≠ 0 ∧ (readHalf p 8).toNat ≤ 60000) := by
  unfold readMode
  grind

theorem readFetch_eq_some {p : List Byte} {f : Fetch} : readFetch p = some f ↔
    readNat p 0 = f.sweep.val ∧ readMode p = some f.mode ∧ readNat p 1 = f.first ∧ readNat p 2 = f.count
      ∧ f.first ≤ 15 ∧ 1 ≤ f.count ∧ f.count ≤ 16 ∧ f.first + f.count ≤ 16 := by
  rw [← sweepOf_eq_some_iff]
  obtain ⟨sweep, first, count, mode⟩ := f
  unfold readFetch
  cases sweepOf p <;> cases readMode p <;> grind

/-- What a RESULT.FETCH payload says, field by field. -/
theorem readFetch_iff {sweep first count mode : Byte} {pass : Word} {wait : Half} {f : Fetch} :
    readFetch ([sweep, first, count, mode] ++ be32 pass ++ be16 wait) = some f ↔
        sweep.toNat = f.sweep.val ∧ first.toNat = f.first ∧ count.toNat = f.count
        ∧ f.first ≤ 15 ∧ 1 ≤ f.count ∧ f.count ≤ 16 ∧ f.first + f.count ≤ 16
        ∧ ((mode = 0 ∧ f.mode = .latest ∧ pass = 0 ∧ wait = 0)
          ∨ (mode = 1 ∧ f.mode = .exact pass ∧ wait = 0)
          ∨ (mode = 2 ∧ f.mode = .newer pass wait ∧ 1 ≤ wait.toNat ∧ wait.toNat ≤ 60000)) := by
  obtain ⟨p, hp⟩ : ∃ p, p = [sweep, first, count, mode] ++ be32 pass ++ be16 wait := ⟨_, rfl⟩
  have fields : readNat p 0 = sweep.toNat ∧ readNat p 1 = first.toNat ∧ readNat p 2 = count.toNat ∧ readByte p 3 = mode
      ∧ readWord p 4 = pass ∧ readHalf p 8 = wait := by
    rw [hp]
    exact ⟨rfl, rfl, rfl, rfl, word_eq_append pass, half_eq_append wait⟩
  obtain ⟨f0, f1, f2, f3, f4, f8⟩ := fields
  have positive : wait ≠ 0 ↔ 1 ≤ wait.toNat := by
    rw [Nat.one_le_iff_ne_zero, ne_eq, ne_eq, ← BitVec.toNat_inj]
    rfl
  rw [← hp, readFetch_eq_some, readMode_eq_some, f0, f1, f2, f3, f4, f8, positive]
  constructor
  · rintro ⟨hs, hm, hf, hc, ranges⟩
    exact ⟨hs, hf, hc, ranges.1, ranges.2.1, ranges.2.2.1, ranges.2.2.2, hm⟩
  · rintro ⟨hs, hf, hc, below, one, most, within, hm⟩
    exact ⟨hs, hm, hf, hc, below, one, most, within⟩

section
variable {s t : State} {r : Request} {rest : List Request}

theorem exec_resultFetch (head : s.hand.resultStore = r :: rest) (kind : r.kind = .resultFetch)
    (ht : t = { s with hand := { s.hand with resultStore := rest } }) : exec .resultFetch s = .next (t.fetch r) := by
  simp only [exec, execResultFetch, head, takeHead_cons kind, ht]
  rfl

/-- A NEWER fetch (R81, R82). -/
theorem State.fetch_newer {i : SweepNo} {first count : Nat} {n : Word} {w : Half}
    (hf : readFetch r.payload = some { sweep := i, first := first, count := count, mode := .newer n w }) :
    t.fetch r = t.fetchNewer r.ref { sweep := i, first := first, count := count, mode := .newer n w } n w := by
  simp only [State.fetch, hf]

end

theorem SweepState.triggerable_eq_false (w : SweepState) : w.triggerable = false ↔ w ≠ .armed ∧ w ≠ .running := by
  cases w <;> simp [SweepState.triggerable]

/-- Settles O41: each mode, and NEWER in the order of its steps. -/
theorem fetchCases : Obligations.FetchCases := by
  unfold Obligations.FetchCases
  refine ⟨fun sweep first count mode pass wait f => readFetch_iff, fun s r rest t head kind ht => ?_,
    fun s r rest t i first count n w g head kind ht hg hf => ?_⟩
  · have pages : ∀ i, t.pagesOf i = s.pagesOf i := fun i => by rw [ht]; rfl
    rw [exec_resultFetch head kind ht]
    refine ⟨fun invalid => ?_, fun i first count g hg => ⟨fun hf => ?_, fun n hf => ⟨fun same => ?_, fun other => ?_⟩⟩⟩
    · simp only [State.fetch, invalid]
      rfl
    · simp only [State.fetch, hf, pages, ← hg]
    · simp only [State.fetch, hf, pages, ← hg, same, if_true]
    · simp only [State.fetch, hf, pages, ← hg, other, if_false]
      rfl
  · have pages : t.pagesOf i = s.pagesOf i := by rw [ht]; rfl
    have state : (t.sweep i).state = (s.sweep i).state := by rw [ht]; rfl
    have waiters : t.waiters = s.waiters := by rw [ht]
    have link : t.link = s.link := by rw [ht]
    rw [exec_resultFetch head kind ht, State.fetch_newer hf]
    simp only [State.fetchNewer, pages, ← hg, state, waiters, link]
    refine ⟨fun newer => ?_, fun old off => ?_, fun old on => ?_⟩
    · rw [if_pos (BitVec.lt_def.2 newer)]
    · have : ¬n < g.pass := fun c => absurd (BitVec.lt_def.1 c) (by omega)
      rw [if_neg this, if_pos ((SweepState.triggerable_eq_false _).1 off)]
      rfl
    · have : ¬n < g.pass := fun c => absurd (BitVec.lt_def.1 c) (by omega)
      have waits : ¬((s.sweep i).state ≠ .armed ∧ (s.sweep i).state ≠ .running) := fun c => by
        rw [(SweepState.triggerable_eq_false _).2 c] at on
        exact absurd on (by decide)
      rw [if_neg this, if_neg waits]
      refine ⟨fun full => ?_, fun room accepted => ?_, fun before after room orphan members fresh => ?_⟩
      · rw [if_pos full]
        rfl
      · rw [if_neg (Nat.not_le.2 room), if_pos (holds_of_mem accepted), ht]
        rfl
      · rw [if_neg (Nat.not_le.2 room), holds_eq_false orphan, members, dropRef_append fresh, ht]
        rfl

/-! ### Waiters (R84, R85) -/

/-- Settles O43. -/
theorem waitersLeave : Obligations.WaitersLeave := by
  unfold Obligations.WaitersLeave
  refine ⟨fun s k w waiter due => ?_, fun s i => ?_⟩
  · simp only [exec, execWaitExpiry, waiter, due, if_true]
    rfl
  · have chosen : (fun w : Waiter => w.sweep == i) = fun w => decide (w.sweep = i) := by
      funext w
      rw [Bool.eq_iff_iff]
      simp
    have left : (fun w : Waiter => !w.sweep == i) = fun w => decide (w.sweep ≠ i) := by
      funext w
      rw [Bool.eq_iff_iff]
      simp
    rw [State.leaveNotice, State.answerWaiters_eq, chosen, left]
    rfl

end Sys2Proof.Machine
end

section
/-! PROOFS. The requests of the Time Base, the Probe Table and the Sweep Engine that define, clear, arm and report (Chapters
1, 2 and 9). -/

namespace Sys2Proof.Machine

/-! ### Taking a PROBE request -/

theorem probeSlotOf_eq_none {p : List Byte} (h : 63 < readNat p 0) : probeSlotOf p = none :=
  dif_neg (by omega)

theorem probeSlotOf_eq_some {p : List Byte} {k : Fin 64} (h : readNat p 0 = k.val) : probeSlotOf p = some k := by
  rw [probeSlotOf, dif_pos (by omega)]
  exact congrArg some (Fin.ext h)

theorem State.takeProbe_cons {s : State} {r : Request} {rest : List Request} {k : ReqKind}
    (head : s.hand.probeTable = r :: rest) (kind : r.kind = k) :
    s.takeProbe k = some (r, { s with hand := { s.hand with probeTable := rest } }) := by
  simp only [State.takeProbe, head, takeHead_cons kind]
  rfl

/-- Settles O30: the three reports. -/
theorem readingRequestsReport : Obligations.ReadingRequestsReport := by
  unfold Obligations.ReadingRequestsReport
  refine ⟨fun s r rest head kind => ?_, fun s r rest head kind => ⟨fun above => ?_, fun k number => ?_⟩,
    fun s r rest head kind => ⟨fun above => ?_, fun i number taken => ?_⟩⟩
  · simp only [exec, execTimeGet, head, takeHead_cons kind]
    rfl
  · simp only [exec, execProbeGet, State.takeProbe_cons head kind, probeSlotOf_eq_none above]
  · simp only [exec, execProbeGet, State.takeProbe_cons head kind, probeSlotOf_eq_some number]
    rfl
  · simp only [exec, execSweepGet, State.takeSweep_none head kind above, sweepOf_eq_none above]
  · simp only [exec, execSweepGet, State.takeSweep_taken head kind number taken, sweepOf_eq_some number]
    rfl

/-! ### What has reached the Watch Unit (R134, log 7) -/

theorem State.takeInbox_nil {s : State} (h : s.inbox = []) : s.takeInbox = s := by
  rw [State.takeInbox, h, List.foldl_nil, ← h]
  rfl

/-- The first thing is taken, and then the rest. -/
theorem State.takeInbox_cons {s : State} {x : WatchItem} {rest : List WatchItem} (h : s.inbox = x :: rest) :
    s.takeInbox = ((s.takeItem x).setInbox rest).takeInbox := by
  rw [State.takeInbox, h, List.foldl_cons, State.takeItem_setInbox, State.takeInbox, State.setInbox_inbox]
  rfl

/-- A command that takes the first thing takes it as the Watch Unit does. -/
theorem State.takeInbox_step {s u : State} {x : WatchItem} {rest : List WatchItem} (h : s.inbox = x :: rest)
    (taken : u = (s.setInbox rest).takeItem x) : s.takeInbox = u.takeInbox := by
  rw [State.takeInbox_cons h, taken, State.takeItem_setInbox]

/-! ### PROBE.SET and PROBE.CLEAR (R10 to R14) -/

theorem State.inUse_eq_false {s : State} {k : Fin 64}
    (h : ∀ i, (s.sweep i).state = .empty ∨ (s.sweep i).state = .idle ∨ k ∉ (s.sweep i).list) : s.inUse k = false := by
  refine List.any_eq_false.2 fun i _ => ?_
  rw [Bool.and_eq_true, List.contains_iff_mem]
  rintro ⟨active, named⟩
  rcases h i with e | e | other
  · rw [e] at active
    exact absurd active (by decide)
  · rw [e] at active
    exact absurd active (by decide)
  · exact other named

theorem State.inUse_eq_true {s : State} {k : Fin 64} {i : SweepNo} (empty : (s.sweep i).state ≠ .empty)
    (idle : (s.sweep i).state ≠ .idle) (named : k ∈ (s.sweep i).list) : s.inUse k = true := by
  refine List.any_eq_true.2 ⟨i, List.mem_finRange i, ?_⟩
  have active : (s.sweep i).state.active = true := by
    cases hs : (s.sweep i).state with
    | empty => exact absurd hs empty
    | idle => exact absurd hs idle
    | armed => rfl
    | running => rfl
    | stopping => rfl
  rw [active, Bool.true_and, List.contains_iff_mem]
  exact named

/-- A record stored, whole. -/
theorem State.storeRecord_eq (s : State) (k : Fin 64) (record : Option ProbeRecord) :
    s.storeRecord k record = { s.takeInbox with
      slots := s.slots.set k { s.slot k with record := record }
      watches := s.takeInbox.watches.set k { watch := .unknown, health := .good, faults := 0 } } := by
  have slots := State.takeInbox_slots s
  have slot : s.takeInbox.slot k = s.slot k := by simp only [State.slot, slots]
  simp only [State.storeRecord, slot]
  rw [State.resetWatch, State.setSlot, slots]
  rfl

/-- The store a PROBE request ends with, and its reply (R11, R12, R14). -/
theorem State.reply_storeRecord {s u : State} {hand : HandOff} {k : Fin 64} {record : Option ProbeRecord} {r : ReqRef}
    (hu : u = State.takeInbox { s with hand := hand }) :
    (State.storeRecord { s with hand := hand } k record).reply r .ok
        ((State.storeRecord { s with hand := hand } k record).slotItems k)
      = State.reply { u with
          slots := s.slots.set k { s.slot k with record := record }
          watches := u.watches.set k { watch := .unknown, health := .good, faults := 0 } }
        r .ok [byteOf k.val, byteOf (s.slot k).refs] := by
  have slot : (State.storeRecord { s with hand := hand } k record).slot k = { s.slot k with record := record } := by
    rw [State.storeRecord_eq]
    exact Vector.getElem_set_self _
  rw [State.slotItems, slot, State.storeRecord_eq, ← hu]
  rfl

/-- Settles O31: valid and free, invalid, and in use. -/
theorem probeSetCases : Obligations.ProbeSetCases := by
  unfold Obligations.ProbeSetCases
  refine ⟨fun s r rest k rec u head kind number read free hu => ?_, fun s => State.takeInbox_nil,
    fun s x rest inbox => ?_, fun s r rest head kind => ⟨fun above => ?_, fun k number invalid => ?_,
      fun k rec i number read empty idle named => ?_⟩, fun s => State.takeInbox_nil,
    fun s u x rest c inbox command taken => ?_⟩
  · have free : State.inUse { s with hand := { s.hand with probeTable := rest } } k = false := State.inUse_eq_false free
    simp only [exec, execProbeSet, State.takeProbe_cons head kind, probeSlotOf_eq_some number, read, free,
      State.reply_storeRecord hu]
    rfl
  · have empty : State.takeItem { s with inbox := [] } x = (s.takeItem x).setInbox [] := State.takeItem_setInbox s [] x
    rw [State.takeInbox_cons inbox, empty]
    rfl
  · simp only [exec, execProbeSet, State.takeProbe_cons head kind, probeSlotOf_eq_none above, State.probeRefusal]
  · simp only [exec, execProbeSet, State.takeProbe_cons head kind, probeSlotOf_eq_some number, invalid,
      State.probeRefusal]
    rfl
  · have used : State.inUse { s with hand := { s.hand with probeTable := rest } } k = true :=
      State.inUse_eq_true empty idle named
    simp only [exec, execProbeSet, State.takeProbe_cons head kind, probeSlotOf_eq_some number, read, used, if_true]
    rfl
  · refine State.takeInbox_step inbox (Host.Outcome.next.inj (taken.symm.trans ?_))
    obtain ⟨⟨copy, rfl⟩, rfl⟩ | ⟨r, rfl, ⟨kind, rfl⟩ | ⟨kind, rfl⟩⟩ := command
    · exact exec_completionCopy inbox
    · simp only [exec, execWatchGet, State.takeWatch_cons inbox kind, State.takeItem, kind]
    · simp only [exec, execWatchReset, State.takeWatch_cons inbox kind, State.takeItem, kind]

/-- Settles O32: PROBE.CLEAR in its four cases. -/
theorem probeClearCases : Obligations.ProbeClearCases := by
  unfold Obligations.ProbeClearCases
  refine fun s r rest head kind => ⟨fun above => ?_, fun k number => ⟨fun used => ?_, fun unused empty => ?_,
    fun u unused defined hu => ?_⟩⟩
  · simp only [exec, execProbeClear, State.takeProbe_cons head kind, probeSlotOf_eq_none above]
  · simp only [exec, execProbeClear, State.takeProbe_cons head kind, probeSlotOf_eq_some number]
    exact if_pos used
  · have items : [byteOf k.val, 0] = s.slotItems k := by rw [State.slotItems, unused]; rfl
    simp only [exec, execProbeClear, State.takeProbe_cons head kind, probeSlotOf_eq_some number, items]
    exact (if_neg (Nat.not_lt.2 unused.le)).trans (if_pos (Option.isNone_iff_eq_none.2 empty))
  · have refs : ({ record := none, refs := 0 } : ProbeSlot) = { s.slot k with record := none } := by rw [← unused]
    have items : [byteOf k.val, 0] = [byteOf k.val, byteOf (s.slot k).refs] := by rw [unused]; rfl
    rw [refs, items, ← State.reply_storeRecord hu]
    simp only [exec, execProbeClear, State.takeProbe_cons head kind, probeSlotOf_eq_some number]
    exact (if_neg (Nat.not_lt.2 unused.le)).trans (if_neg (mt Option.isNone_iff_eq_none.1 defined))

end Sys2Proof.Machine
end

section
/-! PROOFS. SWEEP.SET, SWEEP.CLEAR and SWEEP.ARM (sections 2.3 to 2.5). -/

namespace Sys2Proof.Machine

/-! ### SWEEP.SET (R8, R22, R24) -/

/-- The search finds no EMPTY slot when every slot named is defined. -/
theorem State.lowestEmpty_of_defined {s : State} {l : List (Fin 64)}
    (h : ∀ k, k ∈ l → (s.slot k).record.isSome = true) : s.lowestEmpty l = none := by
  refine List.find?_eq_none.2 fun k _ found => ?_
  rw [Bool.and_eq_true, List.contains_iff_mem, Option.isNone_iff_eq_none] at found
  have := h k found.1
  rw [found.2] at this
  cases this

/-- The search finds the lowest EMPTY slot named. -/
theorem State.lowestEmpty_eq_some {s : State} {l : List (Fin 64)} {k : Fin 64} (named : k ∈ l)
    (empty : (s.slot k).record = none) (lowest : ∀ j : Fin 64, j.val < k.val → j ∈ l → (s.slot j).record ≠ none) :
    s.lowestEmpty l = some k := by
  refine List.find?_eq_some_iff_getElem.2 ⟨?_, k.val, by simp, by simp, fun j hj => ?_⟩
  · rw [empty, Option.isNone_none, Bool.and_true, List.contains_iff_mem]
    exact named
  · have lt : j < 64 := by omega
    have defined := lowest ⟨j, lt⟩ hj
    simpa [← Option.isSome_iff_ne_none, imp_iff_not_or] using defined

theorem SweepState.active_eq_true {x : SweepState} (h : x = .armed ∨ x = .running ∨ x = .stopping) :
    x.active = true := by
  rcases h with rfl | rfl | rfl <;> rfl

theorem SweepState.active_eq_false {x : SweepState} (h : x = .empty ∨ x = .idle) : x.active = false := by
  rcases h with rfl | rfl <;> rfl

section
variable {s : State} {r : Request} {i : SweepNo}

theorem State.sweepSet_busy (h : (s.sweep i).state.active = true) :
    s.sweepSet i r = s.reply r.ref .busy (s.sweepItems i ++ [0]) :=
  if_pos h

theorem State.sweepSet_error {e : Status} (h : (s.sweep i).state.active = false) (read : readSweep r.payload = .error e) :
    s.sweepSet i r = s.reply r.ref e (s.sweepItems i ++ [0]) := by
  simp only [State.sweepSet, h, read, Bool.false_eq_true, if_false]

theorem State.sweepSet_noProbe {d : SweepDef} {k : Fin 64} (h : (s.sweep i).state.active = false)
    (read : readSweep r.payload = .ok d) (found : s.lowestEmpty d.list = some k) :
    s.sweepSet i r = s.reply r.ref .noProbe (s.sweepItems i ++ [byteOf k.val]) := by
  simp only [State.sweepSet, h, read, found, Bool.false_eq_true, if_false]

theorem State.sweepSet_defines {d : SweepDef} (h : (s.sweep i).state.active = false)
    (read : readSweep r.payload = .ok d) (found : s.lowestEmpty d.list = none) :
    s.sweepSet i r = (s.defineSweep i d).reply r.ref .ok ((s.defineSweep i d).sweepItems i ++ [0]) := by
  simp only [State.sweepSet, h, read, found, Bool.false_eq_true, if_false]

end

theorem readSweep_badArg {p : List Byte} (h : readSource p = none ∨ policiesOk p = false) :
    readSweep p = .error .badArg := by
  unfold readSweep
  cases hs : readSource p with
  | none => rfl
  | some source => rw [(h.resolve_left (by simp [hs]) : policiesOk p = false)]; rfl

theorem readSweep_badList {p : List Byte} (source : readSource p ≠ none) (policies : policiesOk p = true)
    (list : sweepListOk p = false) : readSweep p = .error .badList := by
  unfold readSweep
  cases hs : readSource p with
  | none => exact absurd hs source
  | some source => rw [policies, list]; rfl

/-- A definition made the sweep's, whole. -/
theorem State.defineSweep_eq (s : State) (i : SweepNo) (d : SweepDef) : s.defineSweep i d = { s with
    slots := (s.moveRefs (s.sweep i).list d.list).slots
    sweeps := s.sweeps.set i { state := .idle, defn := some d, started := 0, sinceArm := 0, missed := 0, published := 0,
                               timer := none, armExpiry := false, run := none, remnant := 0, held := [] }
    pages := s.pages.set i { s.pagesOf i with a := Page.cleared, b := Page.cleared, workUsed := false } } := by
  obtain ⟨v, moved⟩ := s.moveRefs_frame (s.sweep i).list d.list
  rw [State.defineSweep, moved]
  rfl

theorem State.defineSweep_items (s : State) (i : SweepNo) (d : SweepDef) :
    (s.defineSweep i d).sweepItems i = [byteOf i.val, 1] := by
  have own : (s.defineSweep i d).sweep i = { Sweep.reset with state := .idle, defn := some d } := by
    rw [State.defineSweep_eq, State.sweep]
    exact Vector.getElem_set_self _
  rw [State.sweepItems, own]
  rfl

/-- A SWEEP.SET reaches its sweep. -/
theorem exec_sweepSet {s : State} {r : Request} {rest : List Request} {i : SweepNo}
    (head : s.hand.sweepEngine = r :: rest) (kind : r.kind = .sweepSet) (number : readNat r.payload 0 = i.val)
    (taken : (s.sweep i).armExpiry = false) :
    exec .sweepSet s = .next (State.sweepSet { s with hand := { s.hand with sweepEngine := rest } } i r) := by
  simp only [exec, execSweepSet, State.takeSweep_taken head kind number taken, sweepOf_eq_some number]

/-- Settles O33: defined, and the five grounds of refusal. -/
theorem sweepSetCases : Obligations.SweepSetCases := by
  unfold Obligations.SweepSetCases
  refine ⟨fun s r rest i d head kind number read taken inactive named => ?_, fun s r rest head kind => ⟨fun above => ?_,
    fun i number taken => ⟨fun active => ?_, fun inactive => ⟨fun invalid => ?_, fun source policies list => ?_,
      fun d k read mem empty lowest => ?_⟩⟩⟩⟩
  · rw [exec_sweepSet head kind (sweepOf_eq_some_iff.1 number) taken, State.sweepSet_defines ?_ read ?_,
      State.defineSweep_items, State.defineSweep_eq, State.moveRefs]
    · rfl
    · exact SweepState.active_eq_false inactive
    · exact State.lowestEmpty_of_defined named
  · simp only [exec, execSweepSet, State.takeSweep_none head kind above, sweepOf_eq_none above]
  · rw [exec_sweepSet head kind number taken, State.sweepSet_busy ?_]
    · rfl
    · exact SweepState.active_eq_true active
  · rw [exec_sweepSet head kind number taken, State.sweepSet_error ?_ (readSweep_badArg invalid)]
    · rfl
    · exact SweepState.active_eq_false inactive
  · rw [exec_sweepSet head kind number taken, State.sweepSet_error ?_ (readSweep_badList source policies list)]
    · rfl
    · exact SweepState.active_eq_false inactive
  · rw [exec_sweepSet head kind number taken, State.sweepSet_noProbe ?_ read ?_]
    · rfl
    · exact SweepState.active_eq_false inactive
    · exact State.lowestEmpty_eq_some mem empty lowest

/-! ### SWEEP.CLEAR and SWEEP.ARM (R25 to R27, R152) -/

/-- A sweep made EMPTY, whole. -/
theorem State.clearSweep_eq (s : State) (i : SweepNo) : s.clearSweep i = { s with
    slots := (s.moveRefs (s.sweep i).list []).slots
    sweeps := s.sweeps.set i { s.sweep i with state := .empty, defn := none } } := by
  obtain ⟨v, moved⟩ := s.moveRefs_frame (s.sweep i).list []
  rw [State.clearSweep, State.moveRefs_sweep, moved]
  rfl

theorem State.clearSweep_items (s : State) (i : SweepNo) : (s.clearSweep i).sweepItems i = [byteOf i.val, 0] := by
  have own : (s.clearSweep i).sweep i = { s.sweep i with state := .empty, defn := none } := by
    rw [State.clearSweep, State.setSweep_sweep, State.moveRefs_sweep]
  rw [State.sweepItems, own]
  rfl

theorem State.armSweep_items (s : State) (i : SweepNo) : (s.armSweep i).sweepItems i = [byteOf i.val, 2] := by
  have own : ((s.armSweep i).sweep i).state = .armed := congrArg Sweep.state (State.setSweep_sweep _ i _)
  rw [State.sweepItems, own]
  rfl

section
variable {s t : State} {r : Request}

theorem execSweepClear_idle {i : SweepNo} (found : s.takeSweep .sweepClear = some (r, t))
    (number : readNat r.payload 0 = i.val) (own : (t.sweep i).state = .idle) :
    execSweepClear s = .next ((t.clearSweep i).reply r.ref .ok [byteOf i.val, 0]) := by
  simp only [execSweepClear, found, sweepOf_eq_some number, own, State.clearSweep_items]

theorem execSweepArm_idle {i : SweepNo} (found : s.takeSweep .sweepArm = some (r, t))
    (number : readNat r.payload 0 = i.val) (own : (t.sweep i).state = .idle) :
    execSweepArm s = .next ((t.armSweep i).reply r.ref .ok [byteOf i.val, 2]) := by
  simp only [execSweepArm, found, sweepOf_eq_some number, own, State.armSweep_items]

theorem execSweepClear_active {i : SweepNo} (found : s.takeSweep .sweepClear = some (r, t))
    (number : readNat r.payload 0 = i.val)
    (active : (t.sweep i).state = .armed ∨ (t.sweep i).state = .running ∨ (t.sweep i).state = .stopping) :
    execSweepClear s = .next (t.reply r.ref .busy (t.sweepItems i)) := by
  rcases active with own | own | own <;> simp only [execSweepClear, found, sweepOf_eq_some number, own]

theorem execSweepArm_active {i : SweepNo} (found : s.takeSweep .sweepArm = some (r, t))
    (number : readNat r.payload 0 = i.val)
    (active : (t.sweep i).state = .armed ∨ (t.sweep i).state = .running ∨ (t.sweep i).state = .stopping) :
    execSweepArm s = .next (t.reply r.ref .busy [0, 0]) := by
  rcases active with own | own | own <;> simp only [execSweepArm, found, sweepOf_eq_some number, own]

theorem execSweepClear_empty {i : SweepNo} (found : s.takeSweep .sweepClear = some (r, t))
    (number : readNat r.payload 0 = i.val) (own : (t.sweep i).state = .empty) :
    execSweepClear s = .next (t.reply r.ref .ok [byteOf i.val, 0]) := by
  simp only [execSweepClear, found, sweepOf_eq_some number, own, State.sweepItems]
  rfl

theorem execSweepArm_empty {i : SweepNo} (found : s.takeSweep .sweepArm = some (r, t))
    (number : readNat r.payload 0 = i.val) (own : (t.sweep i).state = .empty) :
    execSweepArm s = .next (t.reply r.ref .noSweep [0, 0]) := by
  simp only [execSweepArm, found, sweepOf_eq_some number, own]

end

/-- The first expiry, by the source. -/
theorem firstExpiry_some (now : Time) (d : SweepDef) :
    (∀ period phase, d.source = .period period phase →
        firstExpiry now (some d) = some (now + BitVec.ofNat 32 (1000 * phase.toNat)))
      ∧ ∀ j, d.source = .host ∨ d.source = .chain j → firstExpiry now (some d) = none := by
  refine ⟨fun period phase source => ?_, fun j source => ?_⟩
  · simp only [firstExpiry, source]
    rfl
  · rcases source with source | source <;> simp only [firstExpiry, source]

theorem phaseZero_some (d : SweepDef) : phaseZero (some d) = true ↔ ∃ period, d.source = .period period 0 := by
  cases source : d.source with
  | period period phase => simp [phaseZero, source]
  | host => simp [phaseZero, source]
  | chain j => simp [phaseZero, source]

/-- Settles O34: by the state of the sweep, and the timer by the source of its definition. -/
theorem sweepClearAndArmCases : Obligations.SweepClearAndArmCases := by
  unfold Obligations.SweepClearAndArmCases
  refine ⟨fun s r rest head kind => ⟨fun above => ?_, fun i number taken => ⟨fun own => ?_, fun active => ?_,
      fun own => ?_⟩⟩,
    fun s r rest head kind => ⟨fun above => ?_, fun i number taken => ⟨fun own => ?_, fun active => ?_,
      fun d own defn => ?_⟩⟩⟩
  · simp only [exec, execSweepClear, State.takeSweep_none head kind above, sweepOf_eq_none above]
  · exact execSweepClear_empty (State.takeSweep_taken head kind number taken) number own
  · exact execSweepClear_active (State.takeSweep_taken head kind number taken) number active
  · refine (execSweepClear_idle (State.takeSweep_taken head kind number taken) number own).trans ?_
    rw [State.clearSweep_eq, State.moveRefs]
    rfl
  · simp only [exec, execSweepArm, State.takeSweep_none head kind above, sweepOf_eq_none above]
  · exact execSweepArm_empty (State.takeSweep_taken head kind number taken) number own
  · exact execSweepArm_active (State.takeSweep_taken head kind number taken) number active
  · obtain ⟨period, other⟩ := firstExpiry_some s.time d
    refine ⟨firstExpiry s.time (some d), phaseZero (some d), ?_, period, other, phaseZero_some d⟩
    refine (execSweepArm_idle (State.takeSweep_taken head kind number taken) number own).trans ?_
    rw [← defn]
    rfl

end Sys2Proof.Machine
end

section
/-! PROOFS. The step: the front of the queue, the idle step, and commands without their occasion (logs 1 and 2). -/

namespace Sys2Proof.Machine

/-- Settles O1: the step on a queue with a front command. -/
theorem stepTakesFrontCommand : Obligations.StepTakesFrontCommand := by
  unfold Obligations.StepTakesFrontCommand
  intro c rest s queue
  simp only [step, queue]

/-! ### Commands without their occasion (log 1) -/

theorem State.takeProbe_nil {s : State} (h : s.hand.probeTable = []) (k : ReqKind) : s.takeProbe k = none := by
  simp only [State.takeProbe, h, takeHead]

theorem State.takeSweep_nil {s : State} (h : s.hand.sweepEngine = []) (k : ReqKind) : s.takeSweep k = none := by
  simp only [State.takeSweep, h, takeHead]

theorem State.takePort_nil {s : State} {o : PortOwner} (h : s.hand.ports o = []) (k : ReqKind) : s.takePort o k = none := by
  simp only [State.takePort, h, takeHead]

theorem State.takeWatch_nil {s : State} (h : s.inbox = []) (k : ReqKind) : s.takeWatch k = none := by
  simp only [State.takeWatch, h]

section
variable {s : State} {c : Instr}

/-- An owner whose hand-off list is empty takes nothing (R175). -/
theorem exec_probe_without (h : s.hand.probeTable = []) (command : c ∈ [Instr.probeSet, .probeClear, .probeGet]) :
    exec c s = .next s := by
  simp only [List.mem_cons, List.not_mem_nil, or_false] at command
  rcases command with rfl | rfl | rfl
  · simp only [exec, execProbeSet, State.takeProbe_nil h]
  · simp only [exec, execProbeClear, State.takeProbe_nil h]
  · simp only [exec, execProbeGet, State.takeProbe_nil h]

theorem exec_sweep_without (h : s.hand.sweepEngine = [])
    (command : c ∈ [Instr.sweepSet, .sweepClear, .sweepArm, .sweepFire, .sweepStop, .sweepGet]) :
    exec c s = .next s := by
  simp only [List.mem_cons, List.not_mem_nil, or_false] at command
  rcases command with rfl | rfl | rfl | rfl | rfl | rfl
  · simp only [exec, execSweepSet, State.takeSweep_nil h]
  · simp only [exec, execSweepClear, State.takeSweep_nil h]
  · simp only [exec, execSweepArm, State.takeSweep_nil h]
  · simp only [exec, execSweepFire, State.takeSweep_nil h]
  · simp only [exec, execSweepStop, State.takeSweep_nil h]
  · simp only [exec, execSweepGet, State.takeSweep_nil h]

theorem exec_port_without {o : PortOwner} (h : s.hand.ports o = [])
    (command : c ∈ [Instr.portSet o, .portGet o, .portClear o, .portXfer o]) : exec c s = .next s := by
  simp only [List.mem_cons, List.not_mem_nil, or_false] at command
  rcases command with rfl | rfl | rfl | rfl
  · simp only [exec, execPortSet, State.takePort_nil h]
  · simp only [exec, execPortGet, State.takePort_nil h]
  · simp only [exec, execPortClear, State.takePort_nil h]
  · simp only [exec, execPortXfer, State.takePort_nil h]

theorem exec_analog_without (h : s.hand.converter = []) (command : c ∈ [Instr.analogSet, .analogGet]) :
    exec c s = .next s := by
  simp only [List.mem_cons, List.not_mem_nil, or_false] at command
  rcases command with rfl | rfl
  · simp only [exec, execAnalogSet, h, takeHead]
  · simp only [exec, execAnalogGet, h, takeHead]

theorem exec_watch_without (h : s.inbox = []) (command : c ∈ [Instr.watchGet, .watchReset, .completionCopy]) :
    exec c s = .next s := by
  simp only [List.mem_cons, List.not_mem_nil, or_false] at command
  rcases command with rfl | rfl | rfl
  · simp only [exec, execWatchGet, State.takeWatch_nil h]
  · simp only [exec, execWatchReset, State.takeWatch_nil h]
  · simp only [exec, execCompletionCopy, h]

/-- A timer that is not at its time (R150). -/
theorem exec_periodExpiry_without {i : SweepNo} (h : (s.sweep i).timer ≠ some s.time) :
    exec (.periodExpiry i) s = .next s := by
  cases timer : (s.sweep i).timer with
  | none => simp only [exec, execPeriodExpiry, timer]
  | some t =>
    have late : t ≠ s.time := fun e => h (timer.trans (congrArg some e))
    simp only [exec, execPeriodExpiry, timer, late, if_false]

theorem exec_waitExpiry_without {k : Nat} (h : ∀ w, s.waiters[k]? = some w → w.deadline ≠ s.time) :
    exec (.waitExpiry k) s = .next s := by
  cases place : s.waiters[k]? with
  | none => simp only [exec, execWaitExpiry, place]
  | some w => simp only [exec, execWaitExpiry, place, h w place, if_false]

theorem exec_settleExpiry_without {p : PortNo} {k : Nat}
    (h : ∀ m, (s.port p).settling[k]? = some m → m.expiry ≠ s.time) : exec (.settleExpiry p k) s = .next s := by
  cases place : (s.port p).settling[k]? with
  | none => simp only [exec, execSettleExpiry, place]
  | some m => simp only [exec, execSettleExpiry, place, h m place, if_false]

theorem exec_stretchTimerExpiry_without {p : PortNo} (h : (s.port p).stretch ≠ some s.time) :
    exec (.stretchTimerExpiry p) s = .next s := by
  cases stretch : (s.port p).stretch with
  | none => simp only [exec, execStretchTimerExpiry, stretch]
  | some expiry =>
    have late : expiry ≠ s.time := fun e => h (stretch.trans (congrArg some e))
    cases granted : (s.port p).granted with
    | none => simp only [exec, execStretchTimerExpiry, stretch, granted]
    | some g => simp only [exec, execStretchTimerExpiry, stretch, granted, late, if_false]

theorem exec_idleTimerExpiry_without (h : s.conv.idleTimer ≠ some s.time) : exec .idleTimerExpiry s = .next s := by
  cases timer : s.conv.idleTimer with
  | none => simp only [exec, execIdleTimerExpiry, timer]
  | some t =>
    have late : t ≠ s.time := fun e => h (timer.trans (congrArg some e))
    simp only [exec, execIdleTimerExpiry, timer, late, false_and, if_false]

/-- An arbiter with nothing issued to it, or nothing to grant (R89, R91). -/
theorem exec_arbiterTakesIssue_without {r : Resource} (h : (s.arb r).issues = []) :
    exec (.arbiterTakesIssue r) s = .next s := by
  cases r with
  | tw p =>
    have nothing : (s.port p).takeIssue s.time = s.port p := by rw [Port.takeIssue, show (s.port p).arb.issues = [] from h]
    simp only [exec, execArbiterTakesIssue, nothing, State.setPort_self]
  | analog =>
    have nothing : s.conv.takeIssue = s.conv := by rw [Converter.takeIssue, show s.conv.arb.issues = [] from h]
    simp only [exec, execArbiterTakesIssue, nothing]
    rfl

theorem Port.grant_self {q : Port}
    (h : q.granted ≠ none ∨ q.state = .blocked ∨ (q.arb.pending = [] ∧ q.transfers = [])) : q.grant = q := by
  rw [Port.grant]
  split
  · rfl
  · next free =>
    rcases h with h | h | ⟨pending, transfers⟩
    · exact absurd (.inl (Option.isSome_iff_ne_none.2 h)) free
    · exact absurd (.inr h) free
    · rw [transfers, pending]
      rfl

theorem Converter.grant_self {q : Converter} (now : Time) (h : q.granted ≠ none ∨ q.arb.pending = []) :
    q.grant now = q := by
  rw [Converter.grant]
  split
  · rfl
  · next free =>
    rcases h with h | h
    · exact absurd (Option.isSome_iff_ne_none.2 h) free
    · rw [h]
      rfl

/-- A bus that performs nothing, or waits for SCL (R104, R112). -/
theorem Port.running_none {q : Port} (h : q.granted = none ∨ q.stretch ≠ none) : q.running = none := by
  rw [Port.running]
  rcases h with h | h
  · rw [h]
    cases q.stretch <;> rfl
  · cases stretch : q.stretch with
    | none => exact absurd stretch h
    | some t => rfl

theorem exec_bus_without {p : PortNo} {k : Nat} {data : List Byte} {high : Bool}
    (h : (s.port p).granted = none ∨ (s.port p).stretch ≠ none)
    (command : c ∈ [Instr.endOfPreludePhase p, .readPhaseEnd p data, .addrNak p k, .dataNak p k,
      .directTransferEnd p data, .clearEnd p k high, .stretching p k]) : exec c s = .next s := by
  have idle := Port.running_none h
  simp only [List.mem_cons, List.not_mem_nil, or_false] at command
  rcases command with rfl | rfl | rfl | rfl | rfl | rfl | rfl
  · simp only [exec, execEndOfPreludePhase, idle]
  · simp only [exec, execReadPhaseEnd, idle]
  · simp only [exec, execAddrNak, idle]
  · simp only [exec, execDataNak, idle]
  · simp only [exec, execDirectTransferEnd, idle]
  · simp only [exec, execClearEnd, idle]
  · cases stretch : (s.port p).stretch with
    | none => simp only [exec, execStretching, stretch, h.resolve_right (not_not.2 stretch)]
    | some t => simp only [exec, execStretching, stretch]

/-- The converter in another power state (R125, R127). -/
theorem exec_endOfWake_without (h : s.conv.power ≠ .waking) : exec .endOfWake s = .next s := by
  cases power : s.conv.power with
  | waking => exact absurd power h
  | off => simp only [exec, execEndOfWake, power]
  | ready => simp only [exec, execEndOfWake, power]
  | converting => simp only [exec, execEndOfWake, power]

theorem exec_endOfConversion_without {v : Sample} (h : s.conv.power ≠ .converting) :
    exec (.endOfConversion v) s = .next s := by
  cases power : s.conv.power with
  | converting => exact absurd power h
  | off => simp only [exec, execEndOfConversion, power]
  | ready => simp only [exec, execEndOfConversion, power]
  | waking => simp only [exec, execEndOfConversion, power]

end

/-- Settles O3: every command keeps the laws' frame, so answers a next state; and each without its occasion. -/
theorem everyCommandAnswersNext : Obligations.EveryCommandAnswersNext := by
  unfold Obligations.EveryCommandAnswersNext
  refine ⟨fun c s => ?_, ?_⟩
  · obtain ⟨t, next, _⟩ := exec_keeps c s
    exact ⟨t, next⟩
  · rintro c s (⟨h, rfl⟩ | ⟨h, command⟩ | ⟨h, command⟩ | ⟨h, rfl⟩ | ⟨o, h, command⟩ | ⟨h, command⟩ | ⟨h, command⟩ |
      ⟨p, h, rfl⟩ | ⟨i, h, rfl⟩ | ⟨k, h, rfl⟩ | ⟨p, k, h, rfl⟩ | ⟨p, h, rfl⟩ | ⟨h, rfl⟩ | ⟨r, h, rfl⟩ | ⟨r, h, rfl⟩ |
      ⟨p, h, rfl⟩ | ⟨h, rfl⟩ | ⟨p, k, data, high, h, command⟩ | ⟨p, h, rfl⟩ | ⟨h, rfl⟩ | ⟨v, h, rfl⟩)
    · simp only [exec, execTimeGet, h, takeHead]
    · exact exec_probe_without h command
    · exact exec_sweep_without h command
    · simp only [exec, execResultFetch, h, takeHead]
    · exact exec_port_without h command
    · exact exec_analog_without h command
    · exact exec_watch_without h command
    · simp only [exec, execHostEntryArrival, h]
    · exact exec_periodExpiry_without h
    · exact exec_waitExpiry_without h
    · exact exec_settleExpiry_without h
    · exact exec_stretchTimerExpiry_without h
    · exact exec_idleTimerExpiry_without h
    · exact exec_arbiterTakesIssue_without h
    · simp only [exec, execCompletion, h]
    · simp only [exec, execGrant, Port.grant_self h, State.setPort_self]
    · simp only [exec, execGrant, Converter.grant_self s.time h]
      rfl
    · exact exec_bus_without h command
    · simp only [exec, execContention, h]
    · exact exec_endOfWake_without h
    · exact exec_endOfConversion_without h

/-! ### The events that are due (R46, R91, R128, R150) -/

theorem mem_placesWhere {α : Type} {l : List α} {f : α → Bool} {k : Nat} :
    k ∈ placesWhere l f ↔ ∃ x, l[k]? = some x ∧ f x = true := by
  rw [placesWhere, List.mem_filter, List.mem_range]
  cases place : l[k]? with
  | none => simp
  | some x =>
    have inside := (List.getElem?_eq_some_iff.1 place).1
    simp [inside]

/-- A member that satisfies the condition stands at one of the places. -/
theorem exists_mem_placesWhere {α : Type} {l : List α} {f : α → Bool} {x : α} (mem : x ∈ l) (h : f x = true) :
    ∃ k, k ∈ placesWhere l f := by
  obtain ⟨k, place⟩ := List.mem_iff_getElem?.1 mem
  exact ⟨k, mem_placesWhere.2 ⟨x, place, h⟩⟩

/-- What is due, owner by owner. -/
theorem State.mem_dueNow {s : State} {c : Instr} : c ∈ s.dueNow ↔
    (∃ i, (s.sweep i).timer = some s.time ∧ c = .periodExpiry i) ∨ (∃ p, c ∈ s.duePort p)
      ∨ (∃ k, k ∈ placesWhere s.waiters (fun w => w.deadline == s.time) ∧ c = .waitExpiry k)
      ∨ c ∈ s.dueConverter ∨ (∃ r, c ∈ s.dueAt r) := by
  have arbiters : (∃ r, c ∈ s.dueAt r) ↔ (∃ p, c ∈ s.dueAt (.tw p)) ∨ c ∈ s.dueAt .analog :=
    ⟨fun ⟨r, h⟩ => match r with
      | .tw p => .inl ⟨p, h⟩
      | .analog => .inr h, fun h => h.elim (fun ⟨p, h⟩ => ⟨_, h⟩) fun h => ⟨_, h⟩⟩
  rw [arbiters, State.dueNow]
  simp only [List.mem_append, List.mem_map, List.mem_filter, List.mem_finRange, true_and, List.mem_flatMap, beq_iff_eq,
    or_assoc, eq_comm (a := c)]

theorem State.duePort_stretch {s : State} {p : PortNo} (timer : (s.port p).stretch = some s.time)
    (granted : (s.port p).granted ≠ none) : Instr.stretchTimerExpiry p ∈ s.duePort p := by
  rw [State.duePort, if_pos ⟨timer, Option.isSome_iff_ne_none.2 granted⟩]
  exact List.mem_append_left _ (List.mem_singleton_self _)

theorem State.duePort_settle {s : State} {p : PortNo} {m : Settling} (mem : m ∈ (s.port p).settling)
    (expiry : m.expiry = s.time) : ∃ k, Instr.settleExpiry p k ∈ s.duePort p := by
  obtain ⟨k, place⟩ := exists_mem_placesWhere (f := fun m => m.expiry == s.time) mem (beq_iff_eq.2 expiry)
  exact ⟨k, List.mem_append_right _ (List.mem_map_of_mem place)⟩

theorem State.dueConverter_idle {s : State} (timer : s.conv.idleTimer = some s.time) (ready : s.conv.power = .ready) :
    Instr.idleTimerExpiry ∈ s.dueConverter := by
  rw [State.dueConverter, if_pos ⟨timer, ready⟩]
  exact List.mem_append_left _ (List.mem_singleton_self _)

theorem State.dueConverter_wake {s : State} {g : Conversion} (waking : s.conv.power = .waking)
    (granted : s.conv.granted = some g) (time : s.time = g.since + 50) : Instr.endOfWake ∈ s.dueConverter := by
  refine List.mem_append_right _ ?_
  simp only [waking, granted]
  rw [if_pos (show s.time = g.since + wakeTime from time)]
  exact List.mem_singleton_self _

theorem State.dueConverter_conversion {s : State} {g : Conversion} (converting : s.conv.power = .converting)
    (granted : s.conv.granted = some g) (last : g.taken + 1 = g.samples) (time : s.time = g.endOf g.samples) :
    Instr.endOfConversion (Config.sampleValue s.free) ∈ s.dueConverter := by
  refine List.mem_append_right _ ?_
  simp only [converting, granted]
  rw [if_pos ⟨last, time⟩]
  exact List.mem_singleton_self _

theorem State.dueAt_issue {s : State} {r : Resource} (issued : (s.arb r).issues ≠ []) :
    Instr.arbiterTakesIssue r ∈ s.dueAt r := by
  rw [State.dueAt, if_neg (mt List.isEmpty_iff.1 issued)]
  exact List.mem_append_left _ (List.mem_singleton_self _)

theorem State.dueAt_grant {s : State} {r : Resource} (due : s.grantDue r = true) : Instr.grant r ∈ s.dueAt r := by
  rw [State.dueAt, if_pos due]
  exact List.mem_append_right _ (List.mem_singleton_self _)

theorem State.grantDue_port {s : State} {p : PortNo} (granted : (s.port p).granted = none)
    (state : (s.port p).state ≠ .blocked) (waiting : (s.port p).arb.pending ≠ [] ∨ (s.port p).transfers ≠ []) :
    s.grantDue (.tw p) = true := by
  have count : 0 < (s.port p).pendingCount := by
    rw [Port.pendingCount]
    rcases waiting with h | h <;> have := List.length_pos_iff.2 h <;> omega
  simp [State.grantDue, granted, state, count]

theorem State.grantDue_analog {s : State} (granted : s.conv.granted = none) (waiting : s.conv.arb.pending ≠ []) :
    s.grantDue .analog = true := by
  simp [State.grantDue, granted, List.length_pos_iff.2 waiting]

/-- Each kind of due event is among those that time does not pass over. -/
theorem State.dueNow_ne_nil {s : State}
    (h : (∃ i, (s.sweep i).timer = some s.time) ∨ (∃ w, w ∈ s.waiters ∧ w.deadline = s.time)
      ∨ (∃ p c, c ∈ s.duePort p) ∨ (∃ c, c ∈ s.dueConverter) ∨ (∃ r c, c ∈ s.dueAt r)) : s.dueNow ≠ [] := by
  rcases h with ⟨i, timer⟩ | ⟨w, mem, deadline⟩ | ⟨p, c, due⟩ | ⟨c, due⟩ | ⟨r, c, due⟩
  · exact List.ne_nil_of_mem (State.mem_dueNow.2 (.inl ⟨i, timer, rfl⟩))
  · obtain ⟨k, place⟩ := exists_mem_placesWhere (f := fun w => w.deadline == s.time) mem (beq_iff_eq.2 deadline)
    exact List.ne_nil_of_mem (State.mem_dueNow.2 (.inr (.inr (.inl ⟨k, place, rfl⟩))))
  · exact List.ne_nil_of_mem (State.mem_dueNow.2 (.inr (.inl ⟨p, due⟩)))
  · exact List.ne_nil_of_mem (State.mem_dueNow.2 (.inr (.inr (.inr (.inl due)))))
  · exact List.ne_nil_of_mem (State.mem_dueNow.2 (.inr (.inr (.inr (.inr ⟨r, due⟩)))))

/-! ### The idle step (log 2) -/

/-- The choice is among the choices. -/
theorem State.choose_mem {s : State} (h : s.choices ≠ []) : s.choose ∈ s.choices := by
  rw [State.choose]
  cases list : s.choices with
  | nil => exact absurd list h
  | cons a rest =>
    cases rest with
    | nil => exact List.mem_singleton_self _
    | cons b rest =>
      have inside : Config.choice s.free % ((b :: rest).length + 1) < (a :: b :: rest).length :=
        Nat.mod_lt _ (Nat.succ_pos _)
      simp only [List.getElem?_eq_getElem inside, Option.getD_some]
      exact List.getElem_mem inside

theorem step_empty {s : State} (queue : s.pending = []) : step s = idle s := by
  simp only [step, queue]

/-- With an event due, the idle step is one of those that are due or waiting. -/
theorem idle_of_due {s : State} (due : s.dueNow ≠ []) :
    ∃ c, c ∈ s.dueNow ++ s.waiting ∧ idle s = exec c { s with free := s.free + 1 } := by
  have choices : s.choices = (s.dueNow ++ s.waiting).map some := by
    rw [State.choices, if_neg (mt List.isEmpty_iff.1 due)]
    rfl
  have several : s.choices ≠ [] := by
    rw [choices]
    simp [due]
  have chosen := State.choose_mem several
  rw [choices, List.mem_map] at chosen
  obtain ⟨c, mem, chosen⟩ := chosen
  exact ⟨c, mem, by rw [idle, ← chosen]⟩

/-- With none due, it is one that waits, or one microsecond. -/
theorem idle_of_none_due {s : State} (none_due : s.dueNow = []) :
    (∃ c, c ∈ s.waiting ∧ idle s = exec c { s with free := s.free + 1 }) ∨ idle s = .next s.advance := by
  have choices : s.choices = none :: s.waiting.map some := by
    rw [State.choices, none_due]
    rfl
  have chosen := State.choose_mem (choices ▸ List.cons_ne_nil _ _)
  rw [choices, List.mem_cons, List.mem_map] at chosen
  rcases chosen with chosen | ⟨c, mem, chosen⟩
  · exact .inr (by rw [idle, chosen])
  · exact .inl ⟨c, mem, by rw [idle, ← chosen]⟩

/-- A sample that ends is of a granted request. -/
theorem Converter.sampleEnds_granted {q : Converter} {now : Time} (h : q.sampleEnds now = true) :
    ∃ g, q.granted = some g := by
  rw [Converter.sampleEnds] at h
  split at h
  · next g _ granted => exact ⟨g, granted⟩
  · cases h

theorem State.advance_no_sample {s : State} (h : s.conv.sampleEnds (s.time + 1) = false) :
    s.advance = { s with time := s.time + 1 } := by
  simp only [State.advance, h, Bool.false_eq_true, if_false]

theorem State.advance_sample {s : State} {g : Conversion} (h : s.conv.sampleEnds (s.time + 1) = true)
    (granted : s.conv.granted = some g) : s.advance = { s with
      time := s.time + 1, free := s.free + 1
      conv := { s.conv with
        granted := some { g with taken := g.taken + 1, sum := g.sum + (Config.sampleValue s.free).toNat } } } := by
  simp only [State.advance, h, if_true, Converter.addSample, granted, Option.map_some]

/-- Settles O2: what is due is never passed over; else the idle step is one that waits, or one microsecond. -/
theorem idleStepWaitsForDueEvents : Obligations.IdleStepWaitsForDueEvents := by
  unfold Obligations.IdleStepWaitsForDueEvents
  refine ⟨fun s queue due => ?_, ?_, fun s queue none_due => ?_⟩
  · rw [step_empty queue]
    exact idle_of_due due
  · rintro s (h | h | ⟨p, m, mem, expiry⟩ | ⟨p, timer, granted⟩ | ⟨timer, ready⟩ | ⟨g, waking, granted, time⟩ |
      ⟨g, d, converting, granted, body, last, time⟩ | ⟨r, issued⟩ | ⟨granted, pending⟩ | ⟨p, granted, state, pending⟩)
    · exact State.dueNow_ne_nil (.inl h)
    · exact State.dueNow_ne_nil (.inr (.inl h))
    · obtain ⟨k, due⟩ := State.duePort_settle mem expiry
      exact State.dueNow_ne_nil (.inr (.inr (.inl ⟨p, _, due⟩)))
    · exact State.dueNow_ne_nil (.inr (.inr (.inl ⟨p, _, State.duePort_stretch timer granted⟩)))
    · exact State.dueNow_ne_nil (.inr (.inr (.inr (.inl ⟨_, State.dueConverter_idle timer ready⟩))))
    · exact State.dueNow_ne_nil (.inr (.inr (.inr (.inl ⟨_, State.dueConverter_wake waking granted time⟩))))
    · have samples : g.samples = d.samples := Conversion.samples_analog body
      have due := State.dueConverter_conversion converting granted (samples ▸ last) (samples ▸ time)
      exact State.dueNow_ne_nil (.inr (.inr (.inr (.inl ⟨_, due⟩))))
    · exact State.dueNow_ne_nil (.inr (.inr (.inr (.inr ⟨r, _, State.dueAt_issue issued⟩))))
    · have due := State.dueAt_grant (State.grantDue_analog granted pending)
      exact State.dueNow_ne_nil (.inr (.inr (.inr (.inr ⟨_, _, due⟩))))
    · have due := State.dueAt_grant (State.grantDue_port granted state pending)
      exact State.dueNow_ne_nil (.inr (.inr (.inr (.inr ⟨_, _, due⟩))))
  · rw [step_empty queue]
    refine (idle_of_none_due none_due).imp_right fun passes => ?_
    cases ends : s.conv.sampleEnds (s.time + 1) with
    | false => exact .inl ⟨rfl, passes.trans (congrArg _ (State.advance_no_sample ends))⟩
    | true =>
      obtain ⟨g, granted⟩ := Converter.sampleEnds_granted ends
      exact .inr ⟨g, _, rfl, granted, passes.trans (congrArg _ (State.advance_sample ends granted))⟩

end Sys2Proof.Machine
end
